-- ==== Sys2Proof/Word.lean ====
section
/-! DEFINITION. The words of the block: bytes, nibbles, identifiers (00_scope R12, R13) and the 8-byte frame. -/

namespace Sys2Proof

/-- Eight bits, numbered 7 (most significant) down to 0 (R13). -/
abbrev Byte := BitVec 8

/-- Four bits: a half of a byte, and the unit an event word is written in (R13, R91). -/
abbrev Nibble := BitVec 4

/-- A CAN identifier: 32 bits, no flag for 11-bit or 29-bit (R12). -/
abbrev Ident := BitVec 32

/-- A CAN payload `f[0] .. f[7]`, `f[0]` first on the wire. A frame always has exactly 8 bytes (R67, R79). -/
structure Frame where
  f0 : Byte
  f1 : Byte
  f2 : Byte
  f3 : Byte
  f4 : Byte
  f5 : Byte
  f6 : Byte
  f7 : Byte
  deriving DecidableEq, Repr, Inhabited

end Sys2Proof
end

