-- ==== Sys2Proof/Config.lean ====
section
/-! DEFINITION. What an implementation or its environment fixes: the block's constants (00_scope R9), the
configuration and parameters of an instance (R10, R11), and the values the spec leaves free (R17, R11). -/

namespace Sys2Proof

/-- The configuration registers CFG (10_state R25): read-only to every unit, loaded before reset is released. -/
structure Cfg where
  txId  : Ident
  rxId  : Ident
  bs    : Byte
  stmin : Byte
  deriving DecidableEq, Repr

/-- The parameters of R11 that a rule of the untimed model reads: P_RX_BUF_CAP (0..4095) and
P_RX_FC_AFTER_FINAL_BLOCK. -/
structure Params where
  rxBufCap             : BitVec 12
  rxFcAfterFinalBlock  : Bool
  deriving DecidableEq, Repr

/-- What the frame channel answers to a send (R17, R27: "Result<(), ChannelError>"). -/
inductive ChannelResult where
  | ok
  | err
  deriving DecidableEq, Repr, Inhabited

/-- MAX_SF_LEN of R9. -/
def Config.maxSfLen : Nat := 7

/-- MAX_LEN of R9. -/
def Config.maxLen : Nat := 4095

/-- FF_DATA of R9. -/
def Config.ffData : Nat := 6

/-- CF_DATA of R9. FRAME_BYTES, SN_MOD and BS_MAX are the bounds of `Frame`, `BitVec 4` and `BitVec 8`. -/
def Config.cfData : Nat := 7

/-- FREE VALUE (log 5): the channel's answer to the n-th frame handed to it, where the environment has not settled
it in `State.channel`. R17: "an environment choice: a draw, under no law". -/
opaque Config.channelAnswer : Nat → ChannelResult

/-- P_T_FC of R11, in microseconds: OPEN (log 9). No rule reads it (R212). -/
opaque Config.tFc : Nat

/-- P_T_CF of R11, in microseconds: OPEN (log 9). No rule reads it (R212). -/
opaque Config.tCf : Nat

/-- P_T_GUARD of R11, in microseconds: OPEN (log 9). No rule reads it (R212). -/
opaque Config.tGuard : Nat

/-- The defaults of R11. -/
def Config.defaultParams : Params := { rxBufCap := 4095, rxFcAfterFinalBlock := false }

/-- DESIGN CHOICE (log 6): the configuration loaded at the model's reset. R25 leaves it to the integrator; this is
node A of 95_test_vectors. -/
def Config.loadedCfg : Cfg := { txId := 0x7E0, rxId := 0x7E8, bs := 3, stmin := 20 }

end Sys2Proof
end

