-- ==== Sys2Proof/Syntax.lean ====
section
/-! DEFINITION. What the block is asked to do: PDUs (00_scope R21), the words of its input ports (30_encoding R91,
R96) and `Instr`, one constructor per row of spec/opcode_table.json. -/

namespace Sys2Proof

/-- The flow statuses ContinueToSend, Wait and Overflow (R84). -/
inductive FlowStatus where
  | cts
  | wait
  | ovflw
  deriving DecidableEq, Repr

/-- A decoded frame, "independent of the raw 8-byte wire encoding" (R21). Lengths and sequence numbers are naturals;
the encoder's domain bounds them (R105). -/
inductive Pdu where
  /-- SingleFrame: SF_DL and its data bytes. -/
  | sf (l : Nat) (d : List Byte)
  /-- FirstFrame: the totalLength FF_DL and the first data bytes. -/
  | ff (n : Nat) (d : List Byte)
  /-- ConsecutiveFrame: the sequence number and the data bytes. -/
  | cf (n : Nat) (d : List Byte)
  /-- FlowControlFrame: the status, blockSize and the raw STmin byte. -/
  | fc (s : FlowStatus) (bs st : Byte)
  deriving DecidableEq, Repr

/-- Why a frame does not decode (R173, R174). -/
inductive FrameError where
  | malformedHeader
  | lengthOutOfRange
  deriving DecidableEq, Repr

/-- What decoding a frame answers: "decode(RawFrame) → Result<PDU, FrameError>" (R113). -/
inductive DecodeResult where
  | pdu (p : Pdu)
  | error (e : FrameError)
  deriving DecidableEq, Repr

/-- One request at an input of the block, one per encoding space of the opcode table (R96): a word of the event port
(R91), a frame given to the decoder, a PDU given to the encoder. DESIGN CHOICE (log 2): the two codec requests are the
model's own, so that the table's ENC and DEC rows can run. -/
inductive PortWord where
  /-- An event word, as nibbles: OP first, each wider field with its most significant nibble first (log 4). -/
  | event (w : List Nibble)
  /-- A frame whose decoding is asked for. -/
  | frame (f : Frame)
  /-- A PDU whose encoding is asked for. -/
  | pdu (p : Pdu)
  deriving DecidableEq, Repr

/-- One constructor per row of spec/opcode_table.json, in its order. -/
inductive Instr where
  /-- ENC.SF (R106): operands L and d. -/
  | encSf (l : Nat) (d : List Byte)
  /-- ENC.FF (R107): operands N and d. -/
  | encFf (n : Nat) (d : List Byte)
  /-- ENC.CF (R108): operands n, taken mod 16, and d. -/
  | encCf (n : Nat) (d : List Byte)
  /-- ENC.FC.CTS (R109). -/
  | encFcCts (bs st : Byte)
  /-- ENC.FC.WAIT (R109). -/
  | encFcWait (bs st : Byte)
  /-- ENC.FC.OVFLW (R109). -/
  | encFcOvflw (bs st : Byte)
  /-- DEC.SF (R115), `0000 0LLL`: SF_DL and the L bytes `f[1..1+L)`. -/
  | decSf (l : BitVec 3) (d : List Byte)
  /-- DEC.SF.LEN_ERR (R116), `0000 1xxx`: the low three bits of a length 8..15. -/
  | decSfLenErr (x : BitVec 3)
  /-- DEC.FF (R117), `0001 NNNN`: FF_DL and the 6 bytes `f[2..8)`. -/
  | decFf (n : BitVec 12) (d : List Byte)
  /-- DEC.CF (R118), `0010 SSSS`: SN and the 7 bytes `f[1..8)`. -/
  | decCf (sn : Nibble) (d : List Byte)
  /-- DEC.FC.CTS (R119), f[0] = 0x30. -/
  | decFcCts (bs st : Byte)
  /-- DEC.FC.WAIT (R120), f[0] = 0x31. -/
  | decFcWait (bs st : Byte)
  /-- DEC.FC.OVFLW (R121), f[0] = 0x32. -/
  | decFcOvflw (bs st : Byte)
  /-- DEC.FC.RSV, first row (R122): f[0] = 0x33. -/
  | decFcRsv3
  /-- DEC.FC.RSV, second row (R122), `0011 01xx`: f[0] in 0x34..0x37. -/
  | decFcRsv4 (x : BitVec 2)
  /-- DEC.FC.RSV, third row (R122), `0011 1xxx`: f[0] in 0x38..0x3F. -/
  | decFcRsv8 (x : BitVec 3)
  /-- DEC.RSV_TYPE, first row (R114), `01xx xxxx`: f[0] in 0x40..0x7F. -/
  | decRsvType4 (x : BitVec 6)
  /-- DEC.RSV_TYPE, second row (R114), `1xxx xxxx`: f[0] in 0x80..0xFF. -/
  | decRsvType8 (x : BitVec 7)
  /-- EV.TX_START (R128 to R131), OP 1: the payload. -/
  | evTxStart (p : List Byte)
  /-- EV.TX_CANCEL (R140), OP 2. -/
  | evTxCancel
  /-- EV.FRAME_IN (R167), OP 3: the CAN identifier and the 8 frame bytes. -/
  | evFrameIn (id : Ident) (f : Frame)
  /-- EV.TMO_TX_FC (R137), OP 4. -/
  | evTmoTxFc
  /-- EV.TMO_TX_STMIN (R138), OP 5. -/
  | evTmoTxStmin
  /-- EV.TMO_RX_CF (R158), OP 6. -/
  | evTmoRxCf
  /-- EV.TMO_RX_GUARD (R159), OP 7. -/
  | evTmoRxGuard
  /-- EV.RSV, first row (R171): OP 0. -/
  | evRsv0
  /-- EV.RSV, second row (R171), `1xxx`: OP 8..15, its low three bits. -/
  | evRsv8 (x : BitVec 3)
  deriving DecidableEq, Repr

end Sys2Proof
end

