-- ==== Sys2Proof/Machine/Operands.lean ====
section
/-! DEFINITION. The operand forms: slices and padding (00_scope R14), the bytes of a frame, the assembly of SF_DL,
FF_DL and SN (30_encoding R85 to R87) and the STmin duration (41_codec_decode R124). -/

namespace Sys2Proof

/-- `s[a..b)`: the elements at indices a up to b - 1, empty when b ≤ a, clipped to the length of s (R14). -/
def slice (a b : Nat) (s : List Byte) : List Byte := (s.drop a).take (b - a)

/-- `pad0(s, n)`: s followed by `n - len(s)` bytes of 0x00 (R14). -/
def pad0 (s : List Byte) (n : Nat) : List Byte := s ++ List.replicate (n - s.length) 0

/-- The bytes of a frame, f[0] first (R13). -/
def Frame.bytes (f : Frame) : List Byte := [f.f0, f.f1, f.f2, f.f3, f.f4, f.f5, f.f6, f.f7]

/-- The frame with the given bytes, f[0] first. Callers give 8; a missing byte would read 0x00. -/
def Frame.ofBytes (s : List Byte) : Frame :=
  { f0 := s.getD 0 0, f1 := s.getD 1 0, f2 := s.getD 2 0, f3 := s.getD 3 0,
    f4 := s.getD 4 0, f5 := s.getD 5 0, f6 := s.getD 6 0, f7 := s.getD 7 0 }

/-- The high nibble `b[7:4]` (R13). -/
def hiNibble (b : Byte) : Nibble := b.extractLsb' 4 4

/-- The low nibble `b[3:0]` (R13). -/
def loNibble (b : Byte) : Nibble := b.extractLsb' 0 4

/-- The byte with the given high and low nibble. For a header byte this is `t << 4 | x`, as R85 to R87 write it. -/
def byteOf (hi lo : Nibble) : Byte := hi ++ lo

/-- FF_DL from f[0] and f[1]: `zext_12(f[0][3:0]) << 8 | zext_12(f[1])`, big-endian (R64, R85). -/
def ffLen (f0 f1 : Byte) : BitVec 12 := (loNibble f0).zeroExtend 12 <<< 8 ||| f1.zeroExtend 12

/-- FF_DL[11:8], which stands in f[0][3:0] (R64). -/
def ffLenHi (n : BitVec 12) : Nibble := n.extractLsb' 8 4

/-- FF_DL[7:0], which stands in f[1] (R64). -/
def ffLenLo (n : BitVec 12) : Byte := n.extractLsb' 0 8

/-- The flow status's nibble: CTS = 0, WAIT = 1, OVFLW = 2 (R84). -/
def flowStatusCode : FlowStatus → Nibble
  | .cts => 0
  | .wait => 1
  | .ovflw => 2

/-- STminDuration in microseconds: 0..127 ms, 100..900 µs, and 127 ms for a reserved byte (R124). -/
def stminDuration (st : Byte) : Nat :=
  if st.toNat ≤ 0x7F then st.toNat * 1000
  else if 0xF1 ≤ st.toNat ∧ st.toNat ≤ 0xF9 then (st.toNat - 0xF0) * 100
  else 127000

end Sys2Proof
end

