-- ==== Sys2Proof/WellFormed.lean ====
section
/-! DEFINITION. Which PDUs the encoder is defined on (40_codec_encode R105) and which instructions an input of the
block can spell (30_encoding R80 to R83, R91). -/

namespace Sys2Proof

/-- The encoder's domain (R105). -/
def Pdu.wf : Pdu → Bool
  | .sf l d => decide (l ≤ 7) && decide (d.length = l)
  | .ff n d => decide (n ≤ 4095) && decide (d.length ≤ 6)
  | .cf _ d => decide (d.length ≤ 7)
  | .fc _ _ _ => true

/-- The operands of an instruction are as its encoding gives them. For an encode operation: the domain of R105. For a
decode outcome: the data bytes that R115, R117 and R118 return. For TX_START: a length that LEN can hold (R91). -/
def Instr.wf : Instr → Bool
  | .encSf l d => Pdu.wf (.sf l d)
  | .encFf n d => Pdu.wf (.ff n d)
  | .encCf n d => Pdu.wf (.cf n d)
  | .encFcCts _ _ => true
  | .encFcWait _ _ => true
  | .encFcOvflw _ _ => true
  | .decSf l d => decide (d.length = l.toNat)
  | .decSfLenErr _ => true
  | .decFf _ d => decide (d.length = 6)
  | .decCf _ d => decide (d.length = 7)
  | .decFcCts _ _ => true
  | .decFcWait _ _ => true
  | .decFcOvflw _ _ => true
  | .decFcRsv3 => true
  | .decFcRsv4 _ => true
  | .decFcRsv8 _ => true
  | .decRsvType4 _ => true
  | .decRsvType8 _ => true
  | .evTxStart p => decide (p.length ≤ 65535)
  | .evTxCancel => true
  | .evFrameIn _ _ => true
  | .evTmoTxFc => true
  | .evTmoTxStmin => true
  | .evTmoRxCf => true
  | .evTmoRxGuard => true
  | .evRsv0 => true
  | .evRsv8 _ => true

end Sys2Proof
end

