-- ==== Sys2Proof/Decode.lean ====
section
/-! DEFINITION. The decoder of what stands at an input of the block, and the encoder of the same words: frames
(30_encoding R79 to R90), event words (R91 to R93) and PDUs. The host's numbering of table words comes last. -/

namespace Sys2Proof

/-- The row a frame decodes to. R90: every value of f[0] has exactly one outcome, tested in the order of R113. -/
def decodeFrame (f : Frame) : Instr :=
  let t := hiNibble f.f0
  let x := loNibble f.f0
  if t = 0 then
    if x.toNat ≤ 7 then .decSf (x.extractLsb' 0 3) (slice 1 (1 + x.toNat) f.bytes)
    else .decSfLenErr (x.extractLsb' 0 3)
  else if t = 1 then .decFf (ffLen f.f0 f.f1) (slice 2 8 f.bytes)
  else if t = 2 then .decCf x (slice 1 8 f.bytes)
  else if t = 3 then
    if x = 0 then .decFcCts f.f1 f.f2
    else if x = 1 then .decFcWait f.f1 f.f2
    else if x = 2 then .decFcOvflw f.f1 f.f2
    else if x = 3 then .decFcRsv3
    else if x.toNat < 8 then .decFcRsv4 (x.extractLsb' 0 2)
    else .decFcRsv8 (x.extractLsb' 0 3)
  else if t.toNat < 8 then .decRsvType4 (f.f0.extractLsb' 0 6)
  else .decRsvType8 (f.f0.extractLsb' 0 7)

/-- One byte of an event word: two nibbles, the more significant first (log 4). -/
def takeByte : List Nibble → Option (Byte × List Nibble)
  | h :: l :: rest => some (byteOf h l, rest)
  | _ => none

/-- n bytes of an event word. -/
def takeBytes : Nat → List Nibble → Option (List Byte × List Nibble)
  | 0, w => some ([], w)
  | n + 1, w =>
    match takeByte w with
    | none => none
    | some (b, w1) =>
      match takeBytes n w1 with
      | none => none
      | some (bs, w2) => some (b :: bs, w2)

/-- The number a field of an event word spells, its first byte the most significant (log 4). -/
def bytesToNat : List Byte → Nat
  | [] => 0
  | b :: bs => b.toNat * 256 ^ bs.length + bytesToNat bs

/-- The TX_START word after OP: LEN (16 bits), then LEN bytes of DATA (R91). -/
def decodeTxStart (w : List Nibble) : Option (Instr × List Nibble) :=
  match takeBytes 2 w with
  | none => none
  | some (len, w1) =>
    match takeBytes (bytesToNat len) w1 with
    | none => none
    | some (p, w2) => some (.evTxStart p, w2)

/-- The FRAME_IN word after OP: ID (32 bits), then F (64 bits, f[0] first) (R91). -/
def decodeFrameIn (w : List Nibble) : Option (Instr × List Nibble) :=
  match takeBytes 4 w with
  | none => none
  | some (id, w1) =>
    match takeBytes 8 w1 with
    | none => none
    | some (f, w2) => some (.evFrameIn (BitVec.ofNat 32 (bytesToNat id)) (Frame.ofBytes f), w2)

/-- One event word and the nibbles after it: the OP field (R92, reserved codes R93), then its arguments. -/
def decodeEvent : List Nibble → Option (Instr × List Nibble)
  | [] => none
  | op :: w =>
    if op = 0 then some (.evRsv0, w)
    else if op = 1 then decodeTxStart w
    else if op = 2 then some (.evTxCancel, w)
    else if op = 3 then decodeFrameIn w
    else if op = 4 then some (.evTmoTxFc, w)
    else if op = 5 then some (.evTmoTxStmin, w)
    else if op = 6 then some (.evTmoRxCf, w)
    else if op = 7 then some (.evTmoRxGuard, w)
    else some (.evRsv8 (op.extractLsb' 0 3), w)

/-- The operation that encodes a PDU (40_codec_encode R106 to R109). -/
def decodePdu : Pdu → Instr
  | .sf l d => .encSf l d
  | .ff n d => .encFf n d
  | .cf n d => .encCf n d
  | .fc .cts bs st => .encFcCts bs st
  | .fc .wait bs st => .encFcWait bs st
  | .fc .ovflw bs st => .encFcOvflw bs st

/-- Why the nibbles given to the event port are no event word (log 4). -/
inductive DecodeError where
  /-- The word ends before its last argument does. -/
  | truncated
  /-- Nibbles stand after the word's last argument. -/
  | trailing
  deriving DecidableEq, Repr

/-- What the decoder answers. -/
inductive Decoded where
  | instr (i : Instr)
  | reject (e : DecodeError)
  deriving DecidableEq, Repr

/-- The decoder, total on every word of every port. A frame and a PDU always decode (R100). -/
def decode : PortWord → Decoded
  | .event w =>
    match decodeEvent w with
    | some (i, []) => .instr i
    | some (_, _ :: _) => .reject .trailing
    | none => .reject .truncated
  | .frame f => .instr (decodeFrame f)
  | .pdu p => .instr (decodePdu p)

/-- A byte as its two nibbles. -/
def byteNibbles (b : Byte) : List Nibble := [hiNibble b, loNibble b]

/-- Bytes as nibbles, in order. -/
def bytesNibbles : List Byte → List Nibble
  | [] => []
  | b :: bs => byteNibbles b ++ bytesNibbles bs

/-- LEN as two bytes. -/
def lenBytes (n : Nat) : List Byte := [BitVec.ofNat 8 (n / 256), BitVec.ofNat 8 n]

/-- ID as four bytes. -/
def identBytes (id : Ident) : List Byte :=
  [id.extractLsb' 24 8, id.extractLsb' 16 8, id.extractLsb' 8 8, id.extractLsb' 0 8]

/-- The nibbles of an event word: OP, then its arguments (R91, R92). -/
def eventWord (op : Nibble) (args : List Byte) : PortWord := .event (op :: bytesNibbles args)

/-- A frame from its first byte and the bytes after it, padded with 0x00 to 8 (R110). -/
def frameWord (f0 : Byte) (rest : List Byte) : PortWord := .frame (Frame.ofBytes (f0 :: pad0 rest 7))

/-- The encoder: the word of a well-formed instruction, written from the formats of R80 to R83, R90 and R91. -/
def encode : Instr → PortWord
  | .encSf l d => .pdu (.sf l d)
  | .encFf n d => .pdu (.ff n d)
  | .encCf n d => .pdu (.cf n d)
  | .encFcCts bs st => .pdu (.fc .cts bs st)
  | .encFcWait bs st => .pdu (.fc .wait bs st)
  | .encFcOvflw bs st => .pdu (.fc .ovflw bs st)
  | .decSf l d => frameWord (0#5 ++ l) d
  | .decSfLenErr x => frameWord (1#5 ++ x) []
  | .decFf n d => frameWord (byteOf 1 (ffLenHi n)) (ffLenLo n :: d)
  | .decCf sn d => frameWord (byteOf 2 sn) d
  | .decFcCts bs st => frameWord 0x30 [bs, st]
  | .decFcWait bs st => frameWord 0x31 [bs, st]
  | .decFcOvflw bs st => frameWord 0x32 [bs, st]
  | .decFcRsv3 => frameWord 0x33 []
  | .decFcRsv4 x => frameWord (13#6 ++ x) []
  | .decFcRsv8 x => frameWord (7#5 ++ x) []
  | .decRsvType4 x => frameWord (1#2 ++ x) []
  | .decRsvType8 x => frameWord (1#1 ++ x) []
  | .evTxStart p => eventWord 1 (lenBytes p.length ++ p)
  | .evTxCancel => eventWord 2 []
  | .evFrameIn id f => eventWord 3 (identBytes id ++ f.bytes)
  | .evTmoTxFc => eventWord 4 []
  | .evTmoTxStmin => eventWord 5 []
  | .evTmoRxCf => eventWord 6 []
  | .evTmoRxGuard => eventWord 7 []
  | .evRsv0 => eventWord 0 []
  | .evRsv8 x => eventWord (1#1 ++ x) []

/-- The first k bytes of w, the least significant first: how the table numbers the bits of a frame. -/
def tableBytes : Nat → Nat → List Byte
  | 0, _ => []
  | k + 1, w => BitVec.ofNat 8 w :: tableBytes k (w / 256)

/-- The first k nibbles of w, the least significant first: the table puts OP at bits 3..0. -/
def tableNibbles : Nat → Nat → List Nibble
  | 0, _ => []
  | k + 1, w => BitVec.ofNat 4 w :: tableNibbles k (w / 16)

/-- The event word that w begins, with zeros after w's bits and cut where the event ends. 25 nibbles are FRAME_IN. -/
def tableEvent (w : Nat) : PortWord :=
  match decodeEvent (tableNibbles 25 w) with
  | some (_, rest) => .event ((tableNibbles 25 w).take (25 - rest.length))
  | none => .event (tableNibbles 25 w)

/-- The port on which a word of the opcode table stands. DESIGN CHOICE (log 3): the table numbers three encoding
spaces in the same bits. A row wider than 8 bits is an event; of the 8-bit words, 1 to 7 are the event op codes of R92
and every other is f[0] of a frame given to the decoder. -/
def tableWord (nbits w : Nat) : PortWord :=
  let v := w % 2 ^ nbits
  if 8 < nbits ∨ (1 ≤ v ∧ v ≤ 7) then tableEvent v
  else .frame (Frame.ofBytes (tableBytes 8 v))

/-- The instruction the decoder reads from a word numbered as the opcode table numbers it, all bits above it 0. -/
def decodeTableWord (nbits w : Nat) : Option Instr :=
  match decode (tableWord nbits w) with
  | .instr i => some i
  | .reject _ => none

end Sys2Proof
end

