-- ==== Sys2Proof/Machine/State.lean ====
section
/-! DEFINITION. The state of one instance (10_state R52), the inputs and outputs of its ports (R27 to R29) as plain
data beside it, and the reasons a step can stop. -/

namespace Sys2Proof.Machine

/-- TX.STATE, 2 bits (R32). -/
inductive TxState where
  | idle
  | awaitFirstFc
  | sendingBlock
  | awaitFc
  deriving DecidableEq, Repr

/-- RX.STATE, 1 bit (R40). -/
inductive RxState where
  | idle
  | awaitCf
  deriving DecidableEq, Repr

/-- The four timers (60_exceptions R189). -/
inductive Timer where
  | txFc
  | txStmin
  | rxCf
  | rxGuard
  deriving DecidableEq, Repr

/-- The codes a TxConfirm carries (R28, R175). -/
inductive TxCode where
  | success
  | flowControlTimeout
  | receiverOverflow
  | channelError
  | cancelled
  deriving DecidableEq, Repr

/-- The codes a RxError carries (R28, R176). -/
inductive RxCode where
  | sequenceMismatch
  | consecutiveFrameTimeout
  | bufferOverrun
  deriving DecidableEq, Repr

/-- The codes a rejected TX_START carries (R29). -/
inductive RejectCode where
  | sessionBusy
  | payloadTooLong
  deriving DecidableEq, Repr

/-- The response of a TX_START step (R29). -/
inductive Response where
  | accepted
  | rejected (c : RejectCode)
  deriving DecidableEq, Repr

/-- The indications (R28). -/
inductive Indication where
  | rxIndication (p : List Byte)
  | rxError (c : RxCode)
  | txConfirm (c : TxCode)
  | frameErrorInd (e : FrameError)
  deriving DecidableEq, Repr

/-- One output of a step (R27, R98): a response, a frame handed to the channel with the channel's result, an
indication. -/
inductive Output where
  | resp (r : Response)
  | frame (id : Ident) (f : Frame) (r : ChannelResult)
  | ind (e : Indication)
  deriving DecidableEq, Repr

/-- What the codec returns to a request for it (40_codec_encode, 41_codec_decode). -/
inductive CodecResult where
  | encoded (f : Frame)
  | decoded (r : DecodeResult)
  deriving DecidableEq, Repr

/-- What the environment presents to one step: the reset signal, which is no event of the event port (R196), or a
word at a port. -/
inductive Input where
  | reset
  | word (w : PortWord)
  deriving DecidableEq, Repr

/-- The Sender's registers and timer bits (R32 to R39). TX.AWAIT_FC is not storage (R38). -/
structure Tx where
  state       : TxState
  remaining   : List Byte
  sn          : BitVec 4
  fsib        : BitVec 10
  bs          : BitVec 8
  stmin       : BitVec 8
  fcArmed     : Bool
  stminArmed  : Bool
  deriving DecidableEq, Repr

/-- The Receiver's registers and timer bits (R40 to R45). -/
structure Rx where
  state       : RxState
  esn         : BitVec 4
  buf         : List Byte
  total       : BitVec 12
  frib        : BitVec 10
  cfArmed     : Bool
  guardArmed  : Bool
  deriving DecidableEq, Repr

/-- The state: the record of R52 (`cfg`, `tx`, `rx`), the parameters of R11 (`params`), and the model's own fields. -/
structure State where
  /-- The configuration registers (R25). -/
  cfg     : Cfg
  /-- The parameters of R11, constant while the instance runs (log 7). -/
  params  : Params
  /-- The Sender. -/
  tx      : Tx
  /-- The Receiver. -/
  rx      : Rx
  /-- The inputs the environment has presented, oldest first (R71, log 1). -/
  inputs  : List Input
  /-- The channel's answers the environment has settled for the sends to come, oldest first (log 5). -/
  channel : List ChannelResult
  /-- How many frames were handed to the channel: the argument of the free value (log 5). -/
  draws   : Nat
  /-- The outputs of all steps, in the order produced (R72, log 11). -/
  out     : List Output
  /-- The results of the codec requests, in order (log 2). -/
  codec   : List CodecResult
  deriving DecidableEq, Repr

/-- Why the machine would stop with a fault. -/
inductive Fault where
  /-- Raised by no step: "No event moves the block into a state from which it cannot go on" (R178, log 14). Safe. -/
  | never
  deriving DecidableEq, Repr

/-- Why a step is refused. Each is a refusal of the model, not a fault of the block (R178). -/
inductive Refusal where
  /-- Raised by an arm of `exec` whose instruction has no meaning yet. No arm does. Safe. -/
  | notModelled (mnemonic : String)
  /-- Raised by EV.RSV: "The model refuses a step on them" (R93, R171). Safe. -/
  | reservedOpCode
  /-- Raised by `step` when CFG is outside the legal values of R25: "Such a configuration has no run" (R26). Safe. -/
  | illegalConfiguration
  /-- Raised by the encode operations on a PDU outside R105: "refused, not encoded". Safe. -/
  | pduOutsideDomain
  /-- Raised by `step` when the nibbles at the event port are no whole event word (R91, log 4). Safe. -/
  | notAnEventWord
  deriving DecidableEq, Repr

/-- The Sender after reset (R196). -/
def Tx.reset : Tx :=
  { state := .idle, remaining := [], sn := 0, fsib := 0, bs := 0, stmin := 0, fcArmed := false, stminArmed := false }

/-- The Receiver after reset (R196). -/
def Rx.reset : Rx :=
  { state := .idle, esn := 0, buf := [], total := 0, frib := 0, cfArmed := false, guardArmed := false }

/-- The block right after reset with the given loaded configuration and parameters (R196, R199, R200), no input
presented and nothing put out. -/
def State.resetWith (c : Cfg) (p : Params) : State :=
  { cfg := c, params := p, tx := Tx.reset, rx := Rx.reset, inputs := [], channel := [], draws := 0, out := [],
    codec := [] }

/-- The machine right after reset, with the configuration of log 6 and the default parameters of R11. -/
def State.reset : State := State.resetWith Config.loadedCfg Config.defaultParams

end Sys2Proof.Machine
end

