-- ==== Sys2Proof/Machine/Flags.lean ====
section
/-! DEFINITION. The block's status bits: TX.AWAIT_FC and the four timers' ARMED bits (10_state R38, R46), with arming,
disarming and the durations of the timers (60_exceptions R188, R189); and the numeric codes (30_encoding R94, R95). -/

namespace Sys2Proof.Machine

/-- TX.AWAIT_FC: 1 exactly in AWAIT_FIRST_FC and AWAIT_FC; not storage (R38). -/
def State.awaitsFc (s : State) : Bool :=
  decide (s.tx.state = .awaitFirstFc) || decide (s.tx.state = .awaitFc)

/-- T.ARMED (R188). -/
def State.armed (s : State) : Timer → Bool
  | .txFc => s.tx.fcArmed
  | .txStmin => s.tx.stminArmed
  | .rxCf => s.rx.cfArmed
  | .rxGuard => s.rx.guardArmed

/-- T.ARMED <- b. -/
def setTimer (t : Timer) (b : Bool) (s : State) : State :=
  match t with
  | .txFc => { s with tx := { s.tx with fcArmed := b } }
  | .txStmin => { s with tx := { s.tx with stminArmed := b } }
  | .rxCf => { s with rx := { s.rx with cfArmed := b } }
  | .rxGuard => { s with rx := { s.rx with guardArmed := b } }

/-- `arm(T)`: start T, or restart it (00_scope R19, R188). The count itself is not state (log 9). -/
def arm (t : Timer) (s : State) : State := setTimer t true s

/-- `disarm(T)`: stop T (00_scope R19, R188). -/
def disarm (t : Timer) (s : State) : State := setTimer t false s

/-- The event TMO_T: enabled only while T.ARMED; "its step first sets T.ARMED <- 0 and then runs the rule" (R188). An
expiry that finds T disarmed has no effect (42_sender R139, 43_receiver R160). -/
def expire (t : Timer) (rule : State → State) (s : State) : State :=
  if s.armed t then rule (disarm t s) else s

/-- The duration of a timer, in microseconds (R189). No rule of the untimed model reads it (R212, log 9). -/
def timerDuration (t : Timer) (s : State) : Nat :=
  match t with
  | .txFc => Config.tFc
  | .txStmin => stminDuration s.tx.stmin
  | .rxCf => Config.tCf
  | .rxGuard => Config.tGuard

/-- The value of TX.STATE (R32). -/
def txStateCode : TxState → BitVec 2
  | .idle => 0
  | .awaitFirstFc => 1
  | .sendingBlock => 2
  | .awaitFc => 3

/-- The value of RX.STATE (R40). -/
def rxStateCode : RxState → BitVec 1
  | .idle => 0
  | .awaitCf => 1

/-- The codes of TxConfirm (R94). -/
def txCode : TxCode → BitVec 8
  | .success => 0x00
  | .flowControlTimeout => 0x11
  | .receiverOverflow => 0x12
  | .channelError => 0x13
  | .cancelled => 0x14

/-- The codes of RxError (R94). -/
def rxCode : RxCode → BitVec 8
  | .sequenceMismatch => 0x20
  | .consecutiveFrameTimeout => 0x21
  | .bufferOverrun => 0x22

/-- The codes of FrameErrorInd (R94). -/
def frameErrorCode : FrameError → BitVec 8
  | .malformedHeader => 0x01
  | .lengthOutOfRange => 0x02

/-- The response codes: Accepted is 0x00, Rejected(c) is c (R95). -/
def responseCode : Response → BitVec 8
  | .accepted => 0x00
  | .rejected .sessionBusy => 0x10
  | .rejected .payloadTooLong => 0x15

end Sys2Proof.Machine
end

