-- ==== Sys2Proof/Machine/Ops.lean ====
section
/-! DEFINITION. The named operations of the block over its state: outputs and the frame channel (00_scope R17), the
legality of the configuration (10_state R26), error entry (AbortTx 42_sender R141, AbortRx 43_receiver R161,
60_exceptions R183) and the reset signal (70_reset_and_hazards R196). -/

namespace Sys2Proof.Machine

/-- Puts one output at the end of the output stream (R17, R72). -/
def emit (o : Output) (s : State) : State := { s with out := s.out ++ [o] }

/-- `Indicate(e)` (R17). -/
def indicate (e : Indication) (s : State) : State := emit (.ind e) s

/-- `respond(v)` (R17). -/
def respond (r : Response) (s : State) : State := emit (.resp r) s

/-- What the channel answers to the next send: the environment's answer, or else a free value (R17, log 5). -/
def State.answer (s : State) : ChannelResult :=
  match s.channel with
  | r :: _ => r
  | [] => Config.channelAnswer s.draws

/-- `ChannelSend(id, f)`: hands f to the channel, which answers `s.answer` in the same step (R17, R72). The answer is
used up. -/
def channelSend (id : Ident) (f : Frame) (s : State) : State :=
  emit (.frame id f s.answer) { s with channel := s.channel.tail, draws := s.draws + 1 }

/-- A codec request's result is put out; nothing else changes, since the codec has no state (R126, log 2). -/
def codecReturn (r : CodecResult) (s : State) : State := { s with codec := s.codec ++ [r] }

/-- CFG is within the legal values of R25. CFG.BS has no illegal value. -/
def cfgLegal (c : Cfg) : Bool :=
  decide (c.txId.toNat ≤ 0x1FFFFFFF) && decide (c.rxId.toNat ≤ 0x1FFFFFFF) && decide (c.stmin.toNat ≤ 127)

/-- TX.STATE <- st. -/
def setTxState (st : TxState) (s : State) : State := { s with tx := { s.tx with state := st } }

/-- Error entry of the Sender: stops its timers, empties TX.REMAINING, goes to IDLE, then reports c (R141, R183). -/
def abortTx (c : TxCode) (s : State) : State :=
  indicate (.txConfirm c)
    { s with tx := { s.tx with fcArmed := false, stminArmed := false, remaining := [], state := .idle } }

/-- The Receiver gives up what it holds: its timers stop, RX.BUF is emptied, RX.FRIB cleared, and it is IDLE. -/
def dropReception (s : State) : State :=
  { s with rx := { s.rx with cfArmed := false, guardArmed := false, buf := [], frib := 0, state := .idle } }

/-- Error entry of the Receiver (R161, R183). -/
def abortRx (c : RxCode) (s : State) : State := indicate (.rxError c) (dropReception s)

/-- The reset signal: every register at its R196 value, CFG at the loaded configuration, which no step changes (R201),
with no indication and no frame (R197). The ports keep what they hold (log 12). -/
def assertReset (s : State) : State := { s with tx := Tx.reset, rx := Rx.reset }

end Sys2Proof.Machine
end

