-- ==== Sys2Proof/Machine/Codec.lean ====
section
/-! DEFINITION. The Frame Codec (40_codec_encode R105 to R112, 41_codec_decode R113 to R126) and the meanings of the
table's ENC and DEC rows: a request for the pure function, whose result is put out and nothing else changes. -/

namespace Sys2Proof.Machine

/-- ENC.SF (R106). -/
def frameSf (l : Nat) (d : List Byte) : Frame := Frame.ofBytes (byteOf 0 (BitVec.ofNat 4 l) :: pad0 d 7)

/-- ENC.FF (R107). -/
def frameFf (n : Nat) (d : List Byte) : Frame :=
  let len := BitVec.ofNat 12 n
  Frame.ofBytes (byteOf 1 (ffLenHi len) :: ffLenLo len :: pad0 d 6)

/-- ENC.CF: n is taken mod 16 (R108). -/
def frameCf (n : Nat) (d : List Byte) : Frame := Frame.ofBytes (byteOf 2 (BitVec.ofNat 4 n) :: pad0 d 7)

/-- ENC.FC: filler 0x00 (R109, R110). -/
def frameFc (s : FlowStatus) (bs st : Byte) : Frame :=
  Frame.ofBytes (byteOf 3 (flowStatusCode s) :: bs :: st :: List.replicate 5 0)

/-- The encoder, "encode(PDU) → RawFrame-payload (8 bytes)"; its domain is `Pdu.wf` (R105). -/
def encodePdu : Pdu → Frame
  | .sf l d => frameSf l d
  | .ff n d => frameFf n d
  | .cf n d => frameCf n d
  | .fc s bs st => frameFc s bs st

/-- DEC.SF and DEC.SF.LEN_ERR (R115, R116). -/
def decodeSf (f : Frame) : DecodeResult :=
  let l := (loNibble f.f0).toNat
  if l ≤ 7 then .pdu (.sf l (slice 1 (1 + l) f.bytes)) else .error .lengthOutOfRange

/-- DEC.FF (R117). -/
def decodeFf (f : Frame) : DecodeResult := .pdu (.ff (ffLen f.f0 f.f1).toNat (slice 2 8 f.bytes))

/-- DEC.CF (R118). -/
def decodeCf (f : Frame) : DecodeResult := .pdu (.cf (loNibble f.f0).toNat (slice 1 8 f.bytes))

/-- DEC.FC (R119 to R122). -/
def decodeFc (f : Frame) : DecodeResult :=
  let x := loNibble f.f0
  if x = 0 then .pdu (.fc .cts f.f1 f.f2)
  else if x = 1 then .pdu (.fc .wait f.f1 f.f2)
  else if x = 2 then .pdu (.fc .ovflw f.f1 f.f2)
  else .error .malformedHeader

/-- The decoder, "decode(RawFrame) → Result<PDU, FrameError>" (R113, R114). -/
def codecDecode (f : Frame) : DecodeResult :=
  let t := hiNibble f.f0
  if t = 0 then decodeSf f
  else if t = 1 then decodeFf f
  else if t = 2 then decodeCf f
  else if t = 3 then decodeFc f
  else .error .malformedHeader

/-- A request to encode p: the frame, or a refusal outside the encoder's domain (R105). -/
def encodeRequest (p : Pdu) (s : State) : Host.Outcome State Fault Refusal :=
  if p.wf then .next (codecReturn (.encoded (encodePdu p)) s) else .refused .pduOutsideDomain

/-- The answer to a request to decode. -/
def decodeReturn (r : DecodeResult) (s : State) : Host.Outcome State Fault Refusal :=
  .next (codecReturn (.decoded r) s)

/-- ENC.SF (R106). -/
def execEncSf (l : Nat) (d : List Byte) (s : State) : Host.Outcome State Fault Refusal := encodeRequest (.sf l d) s

/-- ENC.FF (R107). -/
def execEncFf (n : Nat) (d : List Byte) (s : State) : Host.Outcome State Fault Refusal := encodeRequest (.ff n d) s

/-- ENC.CF (R108). -/
def execEncCf (n : Nat) (d : List Byte) (s : State) : Host.Outcome State Fault Refusal := encodeRequest (.cf n d) s

/-- ENC.FC.CTS (R109). -/
def execEncFcCts (bs st : Byte) (s : State) : Host.Outcome State Fault Refusal := encodeRequest (.fc .cts bs st) s

/-- ENC.FC.WAIT (R109). -/
def execEncFcWait (bs st : Byte) (s : State) : Host.Outcome State Fault Refusal := encodeRequest (.fc .wait bs st) s

/-- ENC.FC.OVFLW (R109). -/
def execEncFcOvflw (bs st : Byte) (s : State) : Host.Outcome State Fault Refusal := encodeRequest (.fc .ovflw bs st) s

/-- DEC.SF (R115). -/
def execDecSf (l : BitVec 3) (d : List Byte) (s : State) : Host.Outcome State Fault Refusal :=
  decodeReturn (.pdu (.sf l.toNat d)) s

/-- DEC.SF.LEN_ERR (R116). -/
def execDecSfLenErr (s : State) : Host.Outcome State Fault Refusal := decodeReturn (.error .lengthOutOfRange) s

/-- DEC.FF (R117). -/
def execDecFf (n : BitVec 12) (d : List Byte) (s : State) : Host.Outcome State Fault Refusal :=
  decodeReturn (.pdu (.ff n.toNat d)) s

/-- DEC.CF (R118). -/
def execDecCf (sn : Nibble) (d : List Byte) (s : State) : Host.Outcome State Fault Refusal :=
  decodeReturn (.pdu (.cf sn.toNat d)) s

/-- DEC.FC.CTS (R119). -/
def execDecFcCts (bs st : Byte) (s : State) : Host.Outcome State Fault Refusal :=
  decodeReturn (.pdu (.fc .cts bs st)) s

/-- DEC.FC.WAIT (R120). -/
def execDecFcWait (bs st : Byte) (s : State) : Host.Outcome State Fault Refusal :=
  decodeReturn (.pdu (.fc .wait bs st)) s

/-- DEC.FC.OVFLW (R121). -/
def execDecFcOvflw (bs st : Byte) (s : State) : Host.Outcome State Fault Refusal :=
  decodeReturn (.pdu (.fc .ovflw bs st)) s

/-- DEC.FC.RSV, f[0] = 0x33 (R122). -/
def execDecFcRsv3 (s : State) : Host.Outcome State Fault Refusal := decodeReturn (.error .malformedHeader) s

/-- DEC.FC.RSV, f[0] in 0x34..0x37 (R122). -/
def execDecFcRsv4 (s : State) : Host.Outcome State Fault Refusal := decodeReturn (.error .malformedHeader) s

/-- DEC.FC.RSV, f[0] in 0x38..0x3F (R122). -/
def execDecFcRsv8 (s : State) : Host.Outcome State Fault Refusal := decodeReturn (.error .malformedHeader) s

/-- DEC.RSV_TYPE, f[0] in 0x40..0x7F (R114). -/
def execDecRsvType4 (s : State) : Host.Outcome State Fault Refusal := decodeReturn (.error .malformedHeader) s

/-- DEC.RSV_TYPE, f[0] in 0x80..0xFF (R114). -/
def execDecRsvType8 (s : State) : Host.Outcome State Fault Refusal := decodeReturn (.error .malformedHeader) s

end Sys2Proof.Machine
end

