-- ==== Sys2Proof/Machine/Receiver.lean ====
section
/-! DEFINITION. The Receiver (43_receiver R147 to R166): the procedures of its events. It never reads or writes a TX
field (10_state R50). -/

namespace Sys2Proof.Machine

/-- EmitFC: the channel's result is ignored (R162). -/
def emitFc (fs : FlowStatus) (s : State) : State :=
  channelSend s.cfg.txId (encodePdu (.fc fs s.cfg.bs s.cfg.stmin)) s

/-- SF: delivered; during a reassembly the partial payload is dropped first, unreported (R148, R149). -/
def onSf (d : List Byte) (s : State) : State :=
  match s.rx.state with
  | .idle => indicate (.rxIndication d) s
  | .awaitCf => indicate (.rxIndication d) (dropReception s)

/-- The registers of a reassembly that a FF has begun (R150). -/
def ffAccepted (n : Nat) (d : List Byte) (s : State) : State :=
  arm .rxCf
    { s with rx := { s.rx with guardArmed := false, buf := d, total := BitVec.ofNat 12 n, esn := 1, frib := 0, state := .awaitCf } }

/-- FF: accepted up to the buffer capacity, else refused with FC(OVFLW) (R150, R151). -/
def onFf (n : Nat) (d : List Byte) (s : State) : State :=
  if n ≤ s.params.rxBufCap.toNat then emitFc .cts (ffAccepted n d s)
  else abortRx .bufferOverrun (emitFc .ovflw s)

/-- RX_GUARD at the end of a reassembly (R155). -/
def completeGuard (s : State) : State :=
  if s.params.rxFcAfterFinalBlock ∧ s.cfg.bs ≠ 0 ∧ s.rx.frib = s.cfg.bs.zeroExtend 10 then arm .rxGuard s
  else if ¬ s.params.rxFcAfterFinalBlock then disarm .rxGuard s
  else s

/-- Complete, the end of a reassembly (R155). -/
def complete (s : State) : State :=
  let s1 := indicate (.rxIndication (s.rx.buf.take s.rx.total.toNat)) s
  let s2 := completeGuard (disarm .rxCf s1)
  { s2 with rx := { s2.rx with buf := [], frib := 0, state := .idle } }

/-- BlockCheck, the block boundary of a reassembly in progress (R156). -/
def blockCheck (s : State) : State :=
  if s.cfg.bs ≠ 0 ∧ s.rx.frib = s.cfg.bs.zeroExtend 10 then arm .rxGuard { s with rx := { s.rx with frib := 0 } }
  else s

/-- How many of a CF's bytes are payload: up to 7, never beyond totalLength (R154). -/
def cfTake (s : State) : Nat := min Config.cfData (s.rx.total.toNat - min s.rx.total.toNat s.rx.buf.length)

/-- The registers after the append; the timeout restarts (R154). -/
def cfAppended (d : List Byte) (s : State) : State :=
  arm .rxCf
    { s with rx := { s.rx with buf := s.rx.buf ++ slice 0 (cfTake s) d, esn := s.rx.esn + 1, frib := s.rx.frib + 1 } }

/-- CF with the expected sequence number (R154). -/
def acceptCf (d : List Byte) (s : State) : State :=
  let s1 := cfAppended d s
  if s1.rx.total.toNat ≤ s1.rx.buf.length then complete s1 else blockCheck s1

/-- CF: an orphan in IDLE; else the sequence number is tested before any append (R152, R153, R182). -/
def onCf (sn : Nat) (d : List Byte) (s : State) : State :=
  match s.rx.state with
  | .idle => s
  | .awaitCf => if sn = s.rx.esn.toNat then acceptCf d s else abortRx .sequenceMismatch s

/-- TMO_RX_CF (R158, R160). -/
def tmoRxCf (s : State) : State :=
  expire .rxCf (fun s1 => if s1.rx.state = .awaitCf then abortRx .consecutiveFrameTimeout s1 else s1) s

/-- TMO_RX_GUARD: in either RX.STATE (R159, R160). -/
def tmoRxGuard (s : State) : State := expire .rxGuard (emitFc .cts) s

end Sys2Proof.Machine
end

