-- ==== Sys2Proof/Machine/Sender.lean ====
section
/-! DEFINITION. The Sender (42_sender R127 to R146): the procedures of its events. It never reads an RX field, CFG.BS or
CFG.STMIN (10_state R50, R146). -/

namespace Sys2Proof.Machine

/-- The registers after a CF of n bytes has gone out: the bytes dropped, TX.SN and TX.FSIB advanced (R132). -/
def cfSent (n : Nat) (s : State) : State :=
  { s with tx := { s.tx with remaining := s.tx.remaining.drop n, sn := s.tx.sn + 1, fsib := s.tx.fsib + 1 } }

/-- What follows a CF that went out: completion first, then the block boundary, then the STmin pause (R132). -/
def afterCf (s : State) : State :=
  if s.tx.remaining = [] then indicate (.txConfirm .success) (setTxState .idle s)
  else if s.tx.bs ≠ 0 ∧ s.tx.fsib = s.tx.bs.zeroExtend 10 then arm .txFc (setTxState .awaitFc s)
  else arm .txStmin (setTxState .sendingBlock s)

/-- EmitCF (R132). -/
def emitCf (s : State) : State :=
  let n := min Config.cfData s.tx.remaining.length
  let sent := channelSend s.cfg.txId (encodePdu (.cf s.tx.sn.toNat (slice 0 n s.tx.remaining))) s
  match s.answer with
  | .err => abortTx .channelError sent
  | .ok => afterCf (cfSent n sent)

/-- TX_START with at most 7 bytes, in IDLE (R130). -/
def startSingle (p : List Byte) (s : State) : State :=
  let s1 := respond .accepted s
  let sent := channelSend s1.cfg.txId (encodePdu (.sf p.length p)) s1
  match s1.answer with
  | .ok => indicate (.txConfirm .success) sent
  | .err => indicate (.txConfirm .channelError) sent

/-- The registers of a transfer that has sent its FF (R131). -/
def ffSent (p : List Byte) (s : State) : State :=
  arm .txFc
    { s with tx := { s.tx with remaining := p.drop Config.ffData, sn := 1, fsib := 0, state := .awaitFirstFc } }

/-- TX_START with 8 to 4095 bytes, in IDLE (R131). -/
def startFirst (p : List Byte) (s : State) : State :=
  let s1 := respond .accepted s
  let sent := channelSend s1.cfg.txId (encodePdu (.ff p.length (slice 0 Config.ffData p))) s1
  match s1.answer with
  | .err => indicate (.txConfirm .channelError) sent
  | .ok => ffSent p sent

/-- TX_START: SessionBusy is tested first, then the length (R128, R129, 60_exceptions R182). -/
def txStart (p : List Byte) (s : State) : State :=
  if s.tx.state ≠ .idle then respond (.rejected .sessionBusy) s
  else if p.length > Config.maxLen then respond (.rejected .payloadTooLong) s
  else if p.length ≤ Config.maxSfLen then startSingle p s
  else startFirst p s

/-- TX_CANCEL (R140). -/
def txCancel (s : State) : State := if s.tx.state = .idle then s else abortTx .cancelled s

/-- The registers a CTS writes before the first CF goes out (R133). -/
def ctsRecorded (bs st : Byte) (s : State) : State :=
  { s with tx := { s.tx with fcArmed := false, bs := bs, stmin := st, fsib := 0 } }

/-- FC(CTS, bs, st) while the Sender awaits Flow Control (R133). -/
def acceptCts (bs st : Byte) (s : State) : State := emitCf (ctsRecorded bs st s)

/-- A Flow Control routed to the Sender: it acts only while the Sender awaits one (R133 to R136). -/
def onFlowControl (fs : FlowStatus) (bs st : Byte) (s : State) : State :=
  if s.awaitsFc then
    match fs with
    | .cts => acceptCts bs st s
    | .wait => arm .txFc s
    | .ovflw => abortTx .receiverOverflow s
  else s

/-- TMO_TX_FC (R137, R139). -/
def tmoTxFc (s : State) : State :=
  expire .txFc (fun s1 => if s1.awaitsFc then abortTx .flowControlTimeout s1 else s1) s

/-- TMO_TX_STMIN (R138, R139). -/
def tmoTxStmin (s : State) : State :=
  expire .txStmin (fun s1 => if s1.tx.state = .sendingBlock then emitCf s1 else s1) s

end Sys2Proof.Machine
end

