-- ==== Sys2Proof/Machine/Events.lean ====
section
/-! DEFINITION. The dispatch of an inbound frame (44_dispatch R167 to R170) and the meanings of the table's EV rows
(30_encoding R92, R93). -/

namespace Sys2Proof.Machine

/-- Route, the dispatch of a decoded frame (R168, R169). -/
def route (r : DecodeResult) (s : State) : State :=
  match r with
  | .error e => indicate (.frameErrorInd e) s
  | .pdu (.sf _ d) => onSf d s
  | .pdu (.ff n d) => onFf n d s
  | .pdu (.cf sn d) => onCf sn d s
  | .pdu (.fc fs bs st) => onFlowControl fs bs st s

/-- FRAME_IN: the identifier filter, then the decoded frame is routed (R167). -/
def frameIn (id : Ident) (f : Frame) (s : State) : State := if id = s.cfg.rxId then route (codecDecode f) s else s

/-- EV.TX_START (R128 to R131). -/
def execEvTxStart (p : List Byte) (s : State) : Host.Outcome State Fault Refusal := .next (txStart p s)

/-- EV.TX_CANCEL (R140). -/
def execEvTxCancel (s : State) : Host.Outcome State Fault Refusal := .next (txCancel s)

/-- EV.FRAME_IN (R167). -/
def execEvFrameIn (id : Ident) (f : Frame) (s : State) : Host.Outcome State Fault Refusal := .next (frameIn id f s)

/-- EV.TMO_TX_FC (R137). -/
def execEvTmoTxFc (s : State) : Host.Outcome State Fault Refusal := .next (tmoTxFc s)

/-- EV.TMO_TX_STMIN (R138). -/
def execEvTmoTxStmin (s : State) : Host.Outcome State Fault Refusal := .next (tmoTxStmin s)

/-- EV.TMO_RX_CF (R158). -/
def execEvTmoRxCf (s : State) : Host.Outcome State Fault Refusal := .next (tmoRxCf s)

/-- EV.TMO_RX_GUARD (R159). -/
def execEvTmoRxGuard (s : State) : Host.Outcome State Fault Refusal := .next (tmoRxGuard s)

/-- EV.RSV, OP 0: "The model refuses a step on them" (R93, R171). -/
def execEvRsv0 : State → Host.Outcome State Fault Refusal := fun _ => .refused .reservedOpCode

/-- EV.RSV, OP 8..15 (R93, R171). -/
def execEvRsv8 : State → Host.Outcome State Fault Refusal := fun _ => .refused .reservedOpCode

end Sys2Proof.Machine
end

