-- ==== Sys2Proof/Machine/Dispatch.lean ====
section
/-! DEFINITION. One arm per constructor of Instr, each one direct call of its meaning. -/

namespace Sys2Proof.Machine

def exec (i : Instr) (s : State) : Host.Outcome State Fault Refusal :=
  match i with
  | .encSf l d => Sys2Proof.Machine.execEncSf l d s
  | .encFf n d => Sys2Proof.Machine.execEncFf n d s
  | .encCf n d => Sys2Proof.Machine.execEncCf n d s
  | .encFcCts bs st => Sys2Proof.Machine.execEncFcCts bs st s
  | .encFcWait bs st => Sys2Proof.Machine.execEncFcWait bs st s
  | .encFcOvflw bs st => Sys2Proof.Machine.execEncFcOvflw bs st s
  | .decSf l d => Sys2Proof.Machine.execDecSf l d s
  | .decSfLenErr _ => Sys2Proof.Machine.execDecSfLenErr s
  | .decFf n d => Sys2Proof.Machine.execDecFf n d s
  | .decCf sn d => Sys2Proof.Machine.execDecCf sn d s
  | .decFcCts bs st => Sys2Proof.Machine.execDecFcCts bs st s
  | .decFcWait bs st => Sys2Proof.Machine.execDecFcWait bs st s
  | .decFcOvflw bs st => Sys2Proof.Machine.execDecFcOvflw bs st s
  | .decFcRsv3 => Sys2Proof.Machine.execDecFcRsv3 s
  | .decFcRsv4 _ => Sys2Proof.Machine.execDecFcRsv4 s
  | .decFcRsv8 _ => Sys2Proof.Machine.execDecFcRsv8 s
  | .decRsvType4 _ => Sys2Proof.Machine.execDecRsvType4 s
  | .decRsvType8 _ => Sys2Proof.Machine.execDecRsvType8 s
  | .evTxStart p => Sys2Proof.Machine.execEvTxStart p s
  | .evTxCancel => Sys2Proof.Machine.execEvTxCancel s
  | .evFrameIn id f => Sys2Proof.Machine.execEvFrameIn id f s
  | .evTmoTxFc => Sys2Proof.Machine.execEvTmoTxFc s
  | .evTmoTxStmin => Sys2Proof.Machine.execEvTmoTxStmin s
  | .evTmoRxCf => Sys2Proof.Machine.execEvTmoRxCf s
  | .evTmoRxGuard => Sys2Proof.Machine.execEvTmoRxGuard s
  | .evRsv0 => Sys2Proof.Machine.execEvRsv0 s
  | .evRsv8 _ => Sys2Proof.Machine.execEvRsv8 s

end Sys2Proof.Machine
end

