-- ==== Sys2Proof/Machine/Step.lean ====
section
/-! DEFINITION. One step of the block (00_scope R7): it takes the oldest input the environment has presented (20_memory
R71), decodes it and runs it. -/

namespace Sys2Proof.Machine

/-- A step on an input, which has left the queue. -/
def stepOn (x : Input) (s : State) : Host.Outcome State Fault Refusal :=
  match x with
  | .reset => .next (assertReset s)
  | .word w =>
    match decode w with
    | .instr i => exec i s
    | .reject _ => .refused .notAnEventWord

/-- One step. An ill-formed configuration "has no run" (R26, log 8). With no input presented the block waits (R198,
log 1). -/
def step (s : State) : Host.Outcome State Fault Refusal :=
  if cfgLegal s.cfg then
    match s.inputs with
    | [] => .next s
    | x :: xs => stepOn x { s with inputs := xs }
  else .refused .illegalConfiguration

/-- The state with the table word presented as the next input (log 3, log 18). -/
def State.withFetchWord (s : State) (nbits w : Nat) : State :=
  { s with inputs := .word (tableWord nbits w) :: s.inputs }

end Sys2Proof.Machine
end

