-- ==== Sys2Proof/Safety.lean ====
section
/-! DEFINITION. The terms claims are stated in: the invariants of the units (10_state R48, R49), what a step has put
out, running several instructions, the end of a run (70_reset_and_hazards R214) and the frames of a transfer as
20_memory R63 lays them out. -/

namespace Sys2Proof.Safety

open Sys2Proof.Machine

/-- The Sender invariants: the five of R48, the bounds of R33 and R35 (with the count that proves them: a block's CFs
before the last carry 7 bytes each), and TX.REMAINING empty in IDLE (R33: there it is unread). -/
abbrev senderInv (t : Tx) : Prop :=
  (t.state = .idle → t.fcArmed = false ∧ t.stminArmed = false) ∧
  ((t.state = .awaitFirstFc ∨ t.state = .awaitFc) ↔ t.fcArmed = true) ∧
  (t.state = .sendingBlock ↔ t.stminArmed = true) ∧
  (t.state ≠ .idle → 1 ≤ t.remaining.length) ∧
  (t.state = .sendingBlock → t.bs ≠ 0 → 1 ≤ t.fsib.toNat ∧ t.fsib.toNat < t.bs.toNat) ∧
  (t.state = .idle → t.remaining = []) ∧
  t.remaining.length ≤ 4089 ∧
  t.fsib.toNat ≤ 585 ∧
  (t.state ≠ .idle → 7 * t.fsib.toNat + t.remaining.length ≤ 4089)

/-- The Receiver invariants: those of R49, the bounds of R42, R44 and R61 (again with the count that proves R44's), and
RX.FRIB cleared in IDLE. -/
abbrev receiverInv (c : Cfg) (p : Params) (r : Rx) : Prop :=
  (r.state = .idle → r.cfArmed = false ∧ r.buf = []) ∧
  (r.state = .awaitCf →
    r.cfArmed = true ∧ (r.buf.length < r.total.toNat ∨ (r.total.toNat ≤ 6 ∧ r.buf.length = 6))) ∧
  (c.bs ≠ 0 → r.frib.toNat < c.bs.toNat) ∧
  (r.state = .idle → r.guardArmed = true → p.rxFcAfterFinalBlock = true) ∧
  (r.state = .idle → r.frib = 0) ∧
  (r.state = .awaitCf → r.total.toNat ≤ p.rxBufCap.toNat ∧ 6 + 7 * r.frib.toNat ≤ r.buf.length)

/-- Both units' invariants. -/
abbrev inv (s : State) : Prop := senderInv s.tx ∧ receiverInv s.cfg s.params s.rx

/-- The end of a run (R214): both units IDLE, no timer armed, no further event offered. -/
abbrev quiescent (s : State) : Prop :=
  s.tx.state = .idle ∧ s.rx.state = .idle ∧ s.tx.fcArmed = false ∧ s.tx.stminArmed = false ∧
  s.rx.cfArmed = false ∧ s.rx.guardArmed = false ∧ s.inputs = []

/-- What t has put out after s. -/
def newOut (s t : State) : List Output := t.out.drop s.out.length

/-- An output is a frame handed to the channel. -/
def isFrame : Output → Bool
  | .frame _ _ _ => true
  | .resp _ => false
  | .ind _ => false

/-- An output is a TxConfirm. -/
def isTxConfirm : Output → Bool
  | .ind (.txConfirm _) => true
  | .ind (.rxIndication _) => false
  | .ind (.rxError _) => false
  | .ind (.frameErrorInd _) => false
  | .frame _ _ _ => false
  | .resp _ => false

/-- An output is a RxIndication or a RxError: the end of a reception. -/
def isRxEnd : Output → Bool
  | .ind (.rxIndication _) => true
  | .ind (.rxError _) => true
  | .ind (.txConfirm _) => false
  | .ind (.frameErrorInd _) => false
  | .frame _ _ _ => false
  | .resp _ => false

/-- The instructions of the Frame Codec: the table's ENC and DEC rows. -/
def isCodec : Instr → Bool
  | .encSf _ _ => true
  | .encFf _ _ => true
  | .encCf _ _ => true
  | .encFcCts _ _ => true
  | .encFcWait _ _ => true
  | .encFcOvflw _ _ => true
  | .decSf _ _ => true
  | .decSfLenErr _ => true
  | .decFf _ _ => true
  | .decCf _ _ => true
  | .decFcCts _ _ => true
  | .decFcWait _ _ => true
  | .decFcOvflw _ _ => true
  | .decFcRsv3 => true
  | .decFcRsv4 _ => true
  | .decFcRsv8 _ => true
  | .decRsvType4 _ => true
  | .decRsvType8 _ => true
  | .evTxStart _ => false
  | .evTxCancel => false
  | .evFrameIn _ _ => false
  | .evTmoTxFc => false
  | .evTmoTxStmin => false
  | .evTmoRxCf => false
  | .evTmoRxGuard => false
  | .evRsv0 => false
  | .evRsv8 _ => false

/-- The reserved event op codes: the two EV.RSV rows. -/
def isReserved : Instr → Bool
  | .evRsv0 => true
  | .evRsv8 _ => true
  | .encSf _ _ => false
  | .encFf _ _ => false
  | .encCf _ _ => false
  | .encFcCts _ _ => false
  | .encFcWait _ _ => false
  | .encFcOvflw _ _ => false
  | .decSf _ _ => false
  | .decSfLenErr _ => false
  | .decFf _ _ => false
  | .decCf _ _ => false
  | .decFcCts _ _ => false
  | .decFcWait _ _ => false
  | .decFcOvflw _ _ => false
  | .decFcRsv3 => false
  | .decFcRsv4 _ => false
  | .decFcRsv8 _ => false
  | .decRsvType4 _ => false
  | .decRsvType8 _ => false
  | .evTxStart _ => false
  | .evTxCancel => false
  | .evFrameIn _ _ => false
  | .evTmoTxFc => false
  | .evTmoTxStmin => false
  | .evTmoRxCf => false
  | .evTmoRxGuard => false

/-- The frame carries a Flow Control: it is routed to the Sender (R168). -/
def carriesFc (f : Frame) : Bool :=
  match codecDecode f with
  | .pdu (.fc _ _ _) => true
  | .pdu (.sf _ _) => false
  | .pdu (.ff _ _) => false
  | .pdu (.cf _ _) => false
  | .error _ => false

/-- Runs instructions one after another, stopping at the first that answers no next state. -/
def execAll : List Instr → State → Host.Outcome State Fault Refusal
  | [], s => .next s
  | i :: is, s =>
    match exec i s with
    | .next t => execAll is t
    | .fault r => .fault r
    | .refused r => .refused r

/-- The result of the document's `sendPayload` (30_encoding R99). -/
inductive SendResult where
  | ok
  | err (c : TxCode)
  | rejected (c : RejectCode)
  deriving DecidableEq, Repr

/-- What an accepted `sendPayload` answers, from the outputs after the response: nothing before its TxConfirm, then Ok
for Success and Err(code) otherwise (R99). A rejected TX_START in between leaves the transfer alone (42_sender R128). An
accepted one shows that the reset signal has abandoned the transfer: only an IDLE Sender accepts (R128), each transfer's
TxConfirm precedes the next acceptance (10_state R29), and an abandoned transfer gets none (70_reset_and_hazards R197).
So the call gets no result, and what follows belongs to the later call. -/
def sendConfirmed : List Output → Option SendResult
  | [] => none
  | .ind (.txConfirm .success) :: _ => some .ok
  | .ind (.txConfirm c) :: _ => some (.err c)
  | .ind (.rxIndication _) :: os => sendConfirmed os
  | .ind (.rxError _) :: os => sendConfirmed os
  | .ind (.frameErrorInd _) :: os => sendConfirmed os
  | .frame _ _ _ :: os => sendConfirmed os
  | .resp (.rejected _) :: os => sendConfirmed os
  | .resp .accepted :: _ => none

/-- What `sendPayload` answers, from the outputs of its TX_START step and of the steps after it: a rejection at once,
else what its own TxConfirm says (R99). The document's `dispatch` is FRAME_IN. -/
def sendPayloadResult : List Output → Option SendResult
  | .resp (.rejected c) :: _ => some (.rejected c)
  | .resp .accepted :: os => sendConfirmed os
  | .ind _ :: _ => none
  | .frame _ _ _ :: _ => none
  | [] => none

/-- How many CFs a payload of n ≥ 8 bytes needs: `ceil((n - 6) / 7)` (42_sender R144). -/
def cfCount (n : Nat) : Nat := (n - 6 + 6) / 7

/-- The FF of a payload: its length, big-endian, and its bytes 0..5 (R63, R64). -/
def payloadFf (p : List Byte) : Frame :=
  Frame.ofBytes (BitVec.ofNat 8 (0x10 + p.length / 256) :: BitVec.ofNat 8 p.length :: p.take 6)

/-- The k-th CF of a payload, k ≥ 1: the sequence number k mod 16 (42_sender R142), the payload bytes from 6+7(k-1) to
min(6+7k, len) (R63), and 0x00 to the end of the frame (R110). -/
def payloadCf (p : List Byte) (k : Nat) : Frame :=
  Frame.ofBytes (BitVec.ofNat 8 (0x20 + k % 16) :: pad0 (slice (6 + 7 * (k - 1)) (6 + 7 * k) p) 7)

/-- The CFs of a payload, in order. -/
def payloadCfs (p : List Byte) : List Frame := (List.range (cfCount p.length)).map (fun j => payloadCf p (j + 1))

/-- The events that make the Sender send n CFs when every Flow Control of the peer is fc: fc itself at the start and
after each full block of its blockSize (42_sender R133, 0 is unbounded), and the end of the STmin pause before every
other CF (R138). -/
def sendEvents (id : Ident) (fc : Frame) (n : Nat) : List Instr :=
  (List.range n).map (fun j => if j = 0 ∨ (fc.f1 ≠ 0 ∧ j % fc.f1.toNat = 0) then .evFrameIn id fc else .evTmoTxStmin)

end Sys2Proof.Safety
end

