-- ==== Sys2Proof/Certificates/Slice0/Obligations.lean ====
section
/-! DEFINITION. The statements for the provers, each about every state unless it says otherwise. Where an equation
gives the next state as a record update of s, every field it does not name is unchanged: that is the frame. -/

open Sys2Proof Sys2Proof.Machine Sys2Proof.Safety

/-! ## Reset and the step -/

/-- The reset signal puts every register at its value of 70_reset_and_hazards R196 (decision D21) and puts nothing out
(R197); CFG, which no step changes (R201), and the ports keep what they hold (the model's choice, log 12). -/
def Obligations.ResetSignalGivesResetValues : Prop :=
  ∀ (s : State) (xs : List Input), cfgLegal s.cfg = true → s.inputs = .reset :: xs →
    ∃ t, step s = .next t ∧
      (t.tx.state = .idle ∧ t.tx.remaining = [] ∧ t.tx.sn = 0 ∧ t.tx.fsib = 0 ∧ t.tx.bs = 0 ∧ t.tx.stmin = 0 ∧
        t.tx.fcArmed = false ∧ t.tx.stminArmed = false) ∧
      (t.rx.state = .idle ∧ t.rx.buf = [] ∧ t.rx.esn = 0 ∧ t.rx.total = 0 ∧ t.rx.frib = 0 ∧
        t.rx.cfArmed = false ∧ t.rx.guardArmed = false) ∧
      t.cfg = s.cfg ∧ t.params = s.params ∧ t.inputs = xs ∧ t.channel = s.channel ∧ t.draws = s.draws ∧
      t.out = s.out ∧ t.codec = s.codec

/-- Whatever configuration was loaded, the block after reset meets the invariants and is quiescent: both units IDLE and
no timer armed by R196, and no input waiting. R214's end of a run asks that the environment offer no further event; that
it offers none right after reset is the model's choice, the empty list of inputs of log 1, and no rule of the spec. -/
def Obligations.ResetMeetsInvariants : Prop :=
  ∀ (c : Cfg) (p : Params), inv (State.resetWith c p) ∧ quiescent (State.resetWith c p)

/-- A step takes the oldest input and runs the instruction it decodes to, on the state without that input
(00_scope R7, 20_memory R71; the queue of inputs is the model's, log 1). -/
def Obligations.StepRunsDecodedInstruction : Prop :=
  ∀ (s : State) (w : PortWord) (xs : List Input) (i : Instr),
    cfgLegal s.cfg = true → s.inputs = .word w :: xs → decode w = .instr i → i.wf = true →
      step s = exec i { s with inputs := xs }

/-- With no input the block waits (R198; log 1). An illegal configuration has no run (R26, decision D22; log 8). Nibbles
that are no whole event word are refused (the model's choice, log 4). -/
def Obligations.StepWaitsOrRefuses : Prop :=
  (∀ s : State, cfgLegal s.cfg = true → s.inputs = [] → step s = .next s) ∧
  (∀ s : State, (0x1FFFFFFF < s.cfg.txId.toNat ∨ 0x1FFFFFFF < s.cfg.rxId.toNat ∨ 127 < s.cfg.stmin.toNat) →
    step s = .refused .illegalConfiguration) ∧
  (∀ (s : State) (w : List Nibble) (xs : List Input) (e : DecodeError),
    cfgLegal s.cfg = true → s.inputs = .word (.event w) :: xs → decode (.event w) = .reject e →
      step s = .refused .notAnEventWord)

/-! ## Decoding and encoding -/

/-- Words of 95_test_vectors: events of PROG-1, PROG-3 and PROG-4 as words of R91 and R92 (the order of their nibbles is
the model's choice, log 4), frames D-4, D-7, D-12, D-13 and D-19 of 2.2, and the PDU SF(3; 01 02 03) of V-SRC-1 in
Part 1. -/
def Obligations.SpecWordsDecode : Prop :=
  decode (.event [1, 0, 0, 0, 1, 0, 1]) = .instr (.evTxStart [0x01]) ∧
  decode (.event [3, 0, 0, 0, 0, 0, 7, 14, 0, 4, 5, 0, 0, 0, 0, 0, 0, 0, 0, 0, 0, 0, 0, 0, 0]) =
    .instr (.evFrameIn 0x7E0 ⟨0x45, 0, 0, 0, 0, 0, 0, 0⟩) ∧
  decode (.event [5]) = .instr .evTmoTxStmin ∧
  decode (.frame ⟨0x03, 0x0A, 0x0B, 0x0C, 0xFF, 0xFF, 0xFF, 0xFF⟩) = .instr (.decSf 3 [0x0A, 0x0B, 0x0C]) ∧
  decode (.frame ⟨0x10, 0x1B, 0x00, 0x01, 0x02, 0x03, 0x04, 0x05⟩) =
    .instr (.decFf 27 [0x00, 0x01, 0x02, 0x03, 0x04, 0x05]) ∧
  decode (.frame ⟨0x2F, 0xAA, 0, 0, 0, 0, 0, 0⟩) = .instr (.decCf 15 [0xAA, 0, 0, 0, 0, 0, 0]) ∧
  decode (.frame ⟨0x30, 0x03, 0x14, 0x99, 0x99, 0x99, 0x99, 0x99⟩) = .instr (.decFcCts 0x03 0x14) ∧
  decode (.frame ⟨0x3F, 0, 0, 0, 0, 0, 0, 0⟩) = .instr (.decFcRsv8 7) ∧
  decode (.pdu (.sf 3 [0x01, 0x02, 0x03])) = .instr (.encSf 3 [0x01, 0x02, 0x03])

/-- Decoding the encoding of a well-formed instruction gives it back, for every instruction and every operand its
encoding admits. -/
def Obligations.DecodeOfEncode : Prop :=
  ∀ i : Instr, i.wf = true → decode (encode i) = .instr i

/-- The other direction, for the event port: an event word that decodes is the encoding of what it decodes to, so each
event has one word (R91, R92; the order of the nibbles is log 4). -/
def Obligations.EventWordsEncodeBack : Prop :=
  ∀ (w : List Nibble) (i : Instr), decode (.event w) = .instr i → encode i = .event w ∧ i.wf = true

/-- The decoder gives every value of f[0] exactly one outcome, in the ranges of the table of 30_encoding R90. -/
def Obligations.FrameDecodesByFirstByte : Prop :=
  ∀ f : Frame, codecDecode f =
    if f.f0.toNat < 0x08 then .pdu (.sf f.f0.toNat ((f.bytes.drop 1).take f.f0.toNat))
    else if f.f0.toNat < 0x10 then .error .lengthOutOfRange
    else if f.f0.toNat < 0x20 then
      .pdu (.ff ((f.f0.toNat - 0x10) * 256 + f.f1.toNat) [f.f2, f.f3, f.f4, f.f5, f.f6, f.f7])
    else if f.f0.toNat < 0x30 then .pdu (.cf (f.f0.toNat - 0x20) [f.f1, f.f2, f.f3, f.f4, f.f5, f.f6, f.f7])
    else if f.f0.toNat = 0x30 then .pdu (.fc .cts f.f1 f.f2)
    else if f.f0.toNat = 0x31 then .pdu (.fc .wait f.f1 f.f2)
    else if f.f0.toNat = 0x32 then .pdu (.fc .ovflw f.f1 f.f2)
    else .error .malformedHeader

/-- The table's DEC rows and the decoder that FRAME_IN uses agree: the row a frame decodes to returns what
`codecDecode` answers. -/
def Obligations.DecRowsAgreeWithDecoder : Prop :=
  ∀ (f : Frame) (s : State),
    exec (decodeFrame f) s = .next { s with codec := s.codec ++ [.decoded (codecDecode f)] }

/-- The round-trip laws of 40_codec_encode R111. -/
def Obligations.CodecRoundTrip : Prop :=
  (∀ (l : Nat) (d : List Byte), l ≤ 7 → d.length = l → codecDecode (encodePdu (.sf l d)) = .pdu (.sf l d)) ∧
  (∀ (n : Nat) (d : List Byte), n ≤ 4095 → d.length = 6 → codecDecode (encodePdu (.ff n d)) = .pdu (.ff n d)) ∧
  (∀ (n : Nat) (d : List Byte), n ≤ 15 → d.length = 7 → codecDecode (encodePdu (.cf n d)) = .pdu (.cf n d)) ∧
  (∀ (fs : FlowStatus) (bs st : Byte), codecDecode (encodePdu (.fc fs bs st)) = .pdu (.fc fs bs st))

/-! ## The codec's instructions -/

/-- DEC.SF (R115): f[0] in 0x00..0x07 gives SF(L, f[1..1+L)) with L = f[0][3:0]. -/
def Obligations.DecSingleFrame : Prop :=
  (∀ (l : BitVec 3) (d : List Byte) (s : State),
    exec (.decSf l d) s = .next { s with codec := s.codec ++ [.decoded (.pdu (.sf l.toNat d))] }) ∧
  (∀ f : Frame, f.f0.toNat ≤ 7 → ∃ l : BitVec 3, l.toNat = f.f0.toNat ∧
    decode (.frame f) = .instr (.decSf l ((f.bytes.drop 1).take f.f0.toNat)))

/-- DEC.FF (R117): N = f[0][3:0] and f[1], big-endian, for every N, those of 0..7 among them (decision D7). -/
def Obligations.DecFirstFrame : Prop :=
  (∀ (n : BitVec 12) (d : List Byte) (s : State),
    exec (.decFf n d) s = .next { s with codec := s.codec ++ [.decoded (.pdu (.ff n.toNat d))] }) ∧
  (∀ f : Frame, 0x10 ≤ f.f0.toNat → f.f0.toNat ≤ 0x1F → ∃ n : BitVec 12,
    n.toNat = (f.f0.toNat - 0x10) * 256 + f.f1.toNat ∧
    decode (.frame f) = .instr (.decFf n [f.f2, f.f3, f.f4, f.f5, f.f6, f.f7]))

/-- DEC.CF (R118): f[0] in 0x20..0x2F gives CF(f[0][3:0], f[1..8)), all 7 data bytes. -/
def Obligations.DecConsecutiveFrame : Prop :=
  (∀ (sn : Nibble) (d : List Byte) (s : State),
    exec (.decCf sn d) s = .next { s with codec := s.codec ++ [.decoded (.pdu (.cf sn.toNat d))] }) ∧
  (∀ f : Frame, 0x20 ≤ f.f0.toNat → f.f0.toNat ≤ 0x2F → ∃ sn : Nibble, sn.toNat = f.f0.toNat - 0x20 ∧
    decode (.frame f) = .instr (.decCf sn [f.f1, f.f2, f.f3, f.f4, f.f5, f.f6, f.f7]))

/-- DEC.FC.CTS, DEC.FC.WAIT and DEC.FC.OVFLW (R119 to R121; the status numbers are decision D4). -/
def Obligations.DecFlowControl : Prop :=
  (∀ (bs st : Byte) (s : State),
    exec (.decFcCts bs st) s = .next { s with codec := s.codec ++ [.decoded (.pdu (.fc .cts bs st))] } ∧
    exec (.decFcWait bs st) s = .next { s with codec := s.codec ++ [.decoded (.pdu (.fc .wait bs st))] } ∧
    exec (.decFcOvflw bs st) s = .next { s with codec := s.codec ++ [.decoded (.pdu (.fc .ovflw bs st))] }) ∧
  (∀ f : Frame,
    (f.f0 = 0x30 → decode (.frame f) = .instr (.decFcCts f.f1 f.f2)) ∧
    (f.f0 = 0x31 → decode (.frame f) = .instr (.decFcWait f.f1 f.f2)) ∧
    (f.f0 = 0x32 → decode (.frame f) = .instr (.decFcOvflw f.f1 f.f2)))

/-- DEC.SF.LEN_ERR answers LengthOutOfRange (R116, decision D6) and the three DEC.FC.RSV rows MalformedHeader (R122,
decision D5), for the values of f[0] the table gives each row. -/
def Obligations.DecReservedLengthOrStatus : Prop :=
  (∀ (x : BitVec 3) (s : State),
    exec (.decSfLenErr x) s = .next { s with codec := s.codec ++ [.decoded (.error .lengthOutOfRange)] }) ∧
  (∀ s : State, exec .decFcRsv3 s = .next { s with codec := s.codec ++ [.decoded (.error .malformedHeader)] }) ∧
  (∀ (x : BitVec 2) (s : State),
    exec (.decFcRsv4 x) s = .next { s with codec := s.codec ++ [.decoded (.error .malformedHeader)] }) ∧
  (∀ (x : BitVec 3) (s : State),
    exec (.decFcRsv8 x) s = .next { s with codec := s.codec ++ [.decoded (.error .malformedHeader)] }) ∧
  (∀ f : Frame, 0x08 ≤ f.f0.toNat → f.f0.toNat ≤ 0x0F → ∃ x : BitVec 3, x.toNat = f.f0.toNat - 0x08 ∧
    decode (.frame f) = .instr (.decSfLenErr x)) ∧
  (∀ f : Frame, f.f0 = 0x33 → decode (.frame f) = .instr .decFcRsv3) ∧
  (∀ f : Frame, 0x34 ≤ f.f0.toNat → f.f0.toNat ≤ 0x37 → ∃ x : BitVec 2, x.toNat = f.f0.toNat - 0x34 ∧
    decode (.frame f) = .instr (.decFcRsv4 x)) ∧
  (∀ f : Frame, 0x38 ≤ f.f0.toNat → f.f0.toNat ≤ 0x3F → ∃ x : BitVec 3, x.toNat = f.f0.toNat - 0x38 ∧
    decode (.frame f) = .instr (.decFcRsv8 x))

/-- DEC.RSV_TYPE (R114): every f[0] with a type nibble of 4..15 answers MalformedHeader, in the table's two rows. -/
def Obligations.DecReservedType : Prop :=
  (∀ (x : BitVec 6) (s : State),
    exec (.decRsvType4 x) s = .next { s with codec := s.codec ++ [.decoded (.error .malformedHeader)] }) ∧
  (∀ (x : BitVec 7) (s : State),
    exec (.decRsvType8 x) s = .next { s with codec := s.codec ++ [.decoded (.error .malformedHeader)] }) ∧
  (∀ f : Frame, 0x40 ≤ f.f0.toNat → f.f0.toNat ≤ 0x7F → ∃ x : BitVec 6, x.toNat = f.f0.toNat - 0x40 ∧
    decode (.frame f) = .instr (.decRsvType4 x)) ∧
  (∀ f : Frame, 0x80 ≤ f.f0.toNat → ∃ x : BitVec 7, x.toNat = f.f0.toNat - 0x80 ∧
    decode (.frame f) = .instr (.decRsvType8 x))

/-- ENC.SF (R106): f[0] = L, then the L data bytes, then 0x00 to 8 bytes; a precondition failure is refused. -/
def Obligations.EncSingleFrame : Prop :=
  ∀ (l : Nat) (d : List Byte) (s : State),
    (l ≤ 7 ∧ d.length = l → ∃ f : Frame, f.bytes = BitVec.ofNat 8 l :: (d ++ List.replicate (7 - l) 0) ∧
      exec (.encSf l d) s = .next { s with codec := s.codec ++ [.encoded f] }) ∧
    (¬ (l ≤ 7 ∧ d.length = l) → exec (.encSf l d) s = .refused .pduOutsideDomain)

/-- ENC.FF (R107): f[0] = 0x10 | N[11:8], f[1] = N[7:0], then d padded with 0x00 to 6 bytes. -/
def Obligations.EncFirstFrame : Prop :=
  ∀ (n : Nat) (d : List Byte) (s : State), n ≤ 4095 → d.length ≤ 6 →
    ∃ f : Frame,
      f.bytes = BitVec.ofNat 8 (0x10 + n / 256) :: BitVec.ofNat 8 (n % 256) :: (d ++ List.replicate (6 - d.length) 0) ∧
      exec (.encFf n d) s = .next { s with codec := s.codec ++ [.encoded f] }

/-- ENC.CF (R108): f[0] = 0x20 | (n mod 16), then d padded with 0x00 to 7 bytes. -/
def Obligations.EncConsecutiveFrame : Prop :=
  ∀ (n : Nat) (d : List Byte) (s : State), d.length ≤ 7 →
    ∃ f : Frame, f.bytes = BitVec.ofNat 8 (0x20 + n % 16) :: (d ++ List.replicate (7 - d.length) 0) ∧
      exec (.encCf n d) s = .next { s with codec := s.codec ++ [.encoded f] }

/-- ENC.FC.CTS, ENC.FC.WAIT and ENC.FC.OVFLW (R109; the status numbers are decision D4, the filler decision D3). -/
def Obligations.EncFlowControl : Prop :=
  ∀ (bs st : Byte) (s : State),
    exec (.encFcCts bs st) s =
      .next { s with codec := s.codec ++ [.encoded ⟨0x30, bs, st, 0, 0, 0, 0, 0⟩] } ∧
    exec (.encFcWait bs st) s =
      .next { s with codec := s.codec ++ [.encoded ⟨0x31, bs, st, 0, 0, 0, 0, 0⟩] } ∧
    exec (.encFcOvflw bs st) s =
      .next { s with codec := s.codec ++ [.encoded ⟨0x32, bs, st, 0, 0, 0, 0, 0⟩] }

/-- The encoder's domain (R105): inside it every PDU is encoded, outside it every PDU is refused, not encoded. -/
def Obligations.EncoderDomain : Prop :=
  (∀ (l : Nat) (d : List Byte) (s : State),
    (l ≤ 7 ∧ d.length = l → ∃ t, exec (.encSf l d) s = .next t) ∧
    (¬ (l ≤ 7 ∧ d.length = l) → exec (.encSf l d) s = .refused .pduOutsideDomain)) ∧
  (∀ (n : Nat) (d : List Byte) (s : State),
    (n ≤ 4095 ∧ d.length ≤ 6 → ∃ t, exec (.encFf n d) s = .next t) ∧
    (¬ (n ≤ 4095 ∧ d.length ≤ 6) → exec (.encFf n d) s = .refused .pduOutsideDomain)) ∧
  (∀ (n : Nat) (d : List Byte) (s : State),
    (d.length ≤ 7 → ∃ t, exec (.encCf n d) s = .next t) ∧
    (¬ d.length ≤ 7 → exec (.encCf n d) s = .refused .pduOutsideDomain)) ∧
  (∀ (bs st : Byte) (s : State),
    (∃ t, exec (.encFcCts bs st) s = .next t) ∧ (∃ t, exec (.encFcWait bs st) s = .next t) ∧
    (∃ t, exec (.encFcOvflw bs st) s = .next t))

/-! ## The Sender -/

/-- TX_START with at most 7 bytes in IDLE (R130): Accepted, one SF, and TxConfirm in the same step; no register is
written and no timer armed. -/
def Obligations.TxStartShortPayload : Prop :=
  ∀ (p : List Byte) (s : State), s.tx.state = .idle → p.length ≤ 7 →
    ∃ f : Frame, f.bytes = BitVec.ofNat 8 p.length :: (p ++ List.replicate (7 - p.length) 0) ∧
      exec (.evTxStart p) s = .next { s with
        channel := s.channel.tail, draws := s.draws + 1,
        out := s.out ++ [.resp .accepted, .frame s.cfg.txId f s.answer,
          .ind (.txConfirm (if s.answer = .ok then .success else .channelError))] }

/-- TX_START with 8 to 4095 bytes in IDLE (R131): Accepted and one FF. On ok the transfer waits for Flow Control with
TX.BS and TX.STMIN as they were; on err it ends with ChannelError and no register is written. -/
def Obligations.TxStartLongPayload : Prop :=
  ∀ (p : List Byte) (s : State), s.tx.state = .idle → 8 ≤ p.length → p.length ≤ 4095 →
    (s.answer = .ok → exec (.evTxStart p) s = .next { s with
      tx := { s.tx with remaining := p.drop 6, sn := 1, fsib := 0, state := .awaitFirstFc, fcArmed := true },
      channel := s.channel.tail, draws := s.draws + 1,
      out := s.out ++ [.resp .accepted, .frame s.cfg.txId (payloadFf p) .ok] }) ∧
    (s.answer = .err → exec (.evTxStart p) s = .next { s with
      channel := s.channel.tail, draws := s.draws + 1,
      out := s.out ++ [.resp .accepted, .frame s.cfg.txId (payloadFf p) .err, .ind (.txConfirm .channelError)] })

/-- A busy Sender answers SessionBusy, whatever the length (R128, order by decision D29); an idle one answers
PayloadTooLong to more than 4095 bytes (R129, decision D15). Nothing else is written. -/
def Obligations.TxStartRejected : Prop :=
  ∀ (p : List Byte) (s : State),
    (s.tx.state ≠ .idle →
      exec (.evTxStart p) s = .next { s with out := s.out ++ [.resp (.rejected .sessionBusy)] }) ∧
    (s.tx.state = .idle → 4095 < p.length →
      exec (.evTxStart p) s = .next { s with out := s.out ++ [.resp (.rejected .payloadTooLong)] })

/-- FC(CTS) while the Sender awaits Flow Control (R133, with EmitCF R132; the CTS step sends the first CF by decision
D9, f[0] = 0x30 is CTS by D4): bs and st are recorded and one CF goes out. The step ends with ChannelError; or with
Success when the payload is exhausted, whatever the block; or waiting for Flow Control when the block of one CF is
full; or in the STmin pause. That an empty TX.REMAINING sends a CF of no data and ends with Success is the model's (log
19): by R108 and R112 the Sender never emits one, and R48 rules the state out. -/
def Obligations.CtsSendsFirstCf : Prop :=
  ∀ (f : Frame) (s : State), f.f0 = 0x30 → s.awaitsFc = true →
    ∃ cf : Frame,
      cf.bytes = BitVec.ofNat 8 (0x20 + s.tx.sn.toNat) ::
        (s.tx.remaining.take 7 ++ List.replicate (7 - s.tx.remaining.length) 0) ∧
      exec (.evFrameIn s.cfg.rxId f) s = .next { s with
        channel := s.channel.tail, draws := s.draws + 1,
        tx :=
          if s.answer = .err then
            { s.tx with bs := f.f1, stmin := f.f2, fsib := 0, fcArmed := false, stminArmed := false, remaining := [],
                        state := .idle }
          else if s.tx.remaining.length ≤ 7 then
            { s.tx with bs := f.f1, stmin := f.f2, fsib := 1, fcArmed := false, remaining := [], sn := s.tx.sn + 1,
                        state := .idle }
          else if f.f1 = 1 then
            { s.tx with bs := f.f1, stmin := f.f2, fsib := 1, fcArmed := true, remaining := s.tx.remaining.drop 7,
                        sn := s.tx.sn + 1, state := .awaitFc }
          else
            { s.tx with bs := f.f1, stmin := f.f2, fsib := 1, fcArmed := false, stminArmed := true,
                        remaining := s.tx.remaining.drop 7, sn := s.tx.sn + 1, state := .sendingBlock },
        out := s.out ++ [.frame s.cfg.txId cf s.answer] ++
          (if s.answer = .err then [.ind (.txConfirm .channelError)]
           else if s.tx.remaining.length ≤ 7 then [.ind (.txConfirm .success)] else []) }

/-- TMO_TX_STMIN in SENDING_BLOCK (R138, with EmitCF R132): one CF goes out and TX.SN and TX.FSIB advance. The step ends
with ChannelError; or with Success when the payload is exhausted, before any block test; or waiting for Flow Control
when TX.FSIB reaches a TX.BS that is not 0; or in the next STmin pause. That TX.FSIB + 1 is a 10-bit sum that wraps is
the model's (log 16; the spec bounds TX.FSIB by 585), and so is what an empty TX.REMAINING does (log 19); no run
reaches either. -/
def Obligations.StminExpirySendsNextCf : Prop :=
  ∀ s : State, s.tx.state = .sendingBlock → s.tx.stminArmed = true →
    ∃ cf : Frame,
      cf.bytes = BitVec.ofNat 8 (0x20 + s.tx.sn.toNat) ::
        (s.tx.remaining.take 7 ++ List.replicate (7 - s.tx.remaining.length) 0) ∧
      exec .evTmoTxStmin s = .next { s with
        channel := s.channel.tail, draws := s.draws + 1,
        tx :=
          if s.answer = .err then
            { s.tx with fcArmed := false, stminArmed := false, remaining := [], state := .idle }
          else if s.tx.remaining.length ≤ 7 then
            { s.tx with stminArmed := false, remaining := [], sn := s.tx.sn + 1, fsib := s.tx.fsib + 1,
                        state := .idle }
          else if s.tx.bs ≠ 0 ∧ (s.tx.fsib + 1).toNat = s.tx.bs.toNat then
            { s.tx with stminArmed := false, fcArmed := true, remaining := s.tx.remaining.drop 7, sn := s.tx.sn + 1,
                        fsib := s.tx.fsib + 1, state := .awaitFc }
          else
            { s.tx with stminArmed := true, remaining := s.tx.remaining.drop 7, sn := s.tx.sn + 1,
                        fsib := s.tx.fsib + 1, state := .sendingBlock },
        out := s.out ++ [.frame s.cfg.txId cf s.answer] ++
          (if s.answer = .err then [.ind (.txConfirm .channelError)]
           else if s.tx.remaining.length ≤ 7 then [.ind (.txConfirm .success)] else []) }

/-- FC(WAIT) while the Sender awaits Flow Control restarts TX_FC and changes nothing else, whatever the frame's bs and st
(R134; no limit on WAITs by decision D13). -/
def Obligations.WaitRestartsTimeout : Prop :=
  ∀ (f : Frame) (s : State), f.f0 = 0x31 → s.awaitsFc = true →
    exec (.evFrameIn s.cfg.rxId f) s = .next { s with tx := { s.tx with fcArmed := true } }

/-- FC(OVFLW) while the Sender awaits Flow Control ends the transfer with ReceiverOverflow (R135, AbortTx R141). -/
def Obligations.OverflowAbortsTransfer : Prop :=
  ∀ (f : Frame) (s : State), f.f0 = 0x32 → (s.tx.state = .awaitFirstFc ∨ s.tx.state = .awaitFc) →
    exec (.evFrameIn s.cfg.rxId f) s = .next { s with
      tx := { s.tx with fcArmed := false, stminArmed := false, remaining := [], state := .idle },
      out := s.out ++ [.ind (.txConfirm .receiverOverflow)] }

/-- A Flow Control of any status that reaches a Sender in IDLE or SENDING_BLOCK is dropped (R136, decision D27). -/
def Obligations.UnawaitedFlowControlDropped : Prop :=
  ∀ (f : Frame) (s : State), 0x30 ≤ f.f0.toNat → f.f0.toNat ≤ 0x32 →
    (s.tx.state = .idle ∨ s.tx.state = .sendingBlock) →
      exec (.evFrameIn s.cfg.rxId f) s = .next s

/-- TMO_TX_FC while the Sender awaits Flow Control ends the transfer with FlowControlTimeout (R137, AbortTx R141). -/
def Obligations.FlowControlTimeoutAborts : Prop :=
  ∀ s : State, (s.tx.state = .awaitFirstFc ∨ s.tx.state = .awaitFc) → s.tx.fcArmed = true →
    exec .evTmoTxFc s = .next { s with
      tx := { s.tx with fcArmed := false, stminArmed := false, remaining := [], state := .idle },
      out := s.out ++ [.ind (.txConfirm .flowControlTimeout)] }

/-- TX_CANCEL ends a transfer in progress with Cancelled, sends nothing, and has no effect in IDLE (R140, decision
D14). -/
def Obligations.CancelAbortsTransfer : Prop :=
  ∀ s : State,
    (s.tx.state ≠ .idle → exec .evTxCancel s = .next { s with
      tx := { s.tx with fcArmed := false, stminArmed := false, remaining := [], state := .idle },
      out := s.out ++ [.ind (.txConfirm .cancelled)] }) ∧
    (s.tx.state = .idle → exec .evTxCancel s = .next s)

/-- An expiry that finds its timer disarmed has no effect and no output (R139, R160, decision D20). -/
def Obligations.StaleExpiriesDoNothing : Prop :=
  ∀ s : State,
    (s.tx.fcArmed = false → exec .evTmoTxFc s = .next s) ∧
    (s.tx.stminArmed = false → exec .evTmoTxStmin s = .next s) ∧
    (s.rx.cfArmed = false → exec .evTmoRxCf s = .next s) ∧
    (s.rx.guardArmed = false → exec .evTmoRxGuard s = .next s)

/-! ## The Receiver -/

/-- A SF in IDLE is delivered: its declared-length data, no register written, no frame (R148). -/
def Obligations.SingleFrameDelivered : Prop :=
  ∀ (f : Frame) (s : State), f.f0.toNat ≤ 7 → s.rx.state = .idle →
    exec (.evFrameIn s.cfg.rxId f) s = .next { s with
      out := s.out ++ [.ind (.rxIndication ((f.bytes.drop 1).take f.f0.toNat))] }

/-- A SF during a reassembly discards the partial payload without a report and is delivered (R149, decision D11). -/
def Obligations.SingleFrameEndsReassembly : Prop :=
  ∀ (f : Frame) (s : State), f.f0.toNat ≤ 7 → s.rx.state = .awaitCf →
    exec (.evFrameIn s.cfg.rxId f) s = .next { s with
      rx := { s.rx with cfArmed := false, guardArmed := false, buf := [], frib := 0, state := .idle },
      out := s.out ++ [.ind (.rxIndication ((f.bytes.drop 1).take f.f0.toNat))] }

/-- A FF within the capacity starts a reassembly, or restarts one in silence (decision D30), and FC(CTS, CFG.BS,
CFG.STMIN) goes out at once; its channel result is ignored (R150, R162, decisions D2, D7, D16). -/
def Obligations.FirstFrameStartsReassembly : Prop :=
  ∀ (f : Frame) (s : State), 0x10 ≤ f.f0.toNat → f.f0.toNat ≤ 0x1F →
    (f.f0.toNat - 0x10) * 256 + f.f1.toNat ≤ s.params.rxBufCap.toNat →
      ∃ n : BitVec 12, n.toNat = (f.f0.toNat - 0x10) * 256 + f.f1.toNat ∧
        exec (.evFrameIn s.cfg.rxId f) s = .next { s with
          rx := { state := .awaitCf, esn := 1, buf := [f.f2, f.f3, f.f4, f.f5, f.f6, f.f7], total := n, frib := 0,
                  cfArmed := true, guardArmed := false },
          channel := s.channel.tail, draws := s.draws + 1,
          out := s.out ++ [.frame s.cfg.txId ⟨0x30, s.cfg.bs, s.cfg.stmin, 0, 0, 0, 0, 0⟩ s.answer] }

/-- A FF above P_RX_BUF_CAP is answered with FC(OVFLW) and ends with RxError(BufferOverrun) (R151, decision D12). -/
def Obligations.FirstFrameOverCapacity : Prop :=
  ∀ (f : Frame) (s : State), 0x10 ≤ f.f0.toNat → f.f0.toNat ≤ 0x1F →
    s.params.rxBufCap.toNat < (f.f0.toNat - 0x10) * 256 + f.f1.toNat →
      exec (.evFrameIn s.cfg.rxId f) s = .next { s with
        rx := { s.rx with cfArmed := false, guardArmed := false, buf := [], frib := 0, state := .idle },
        channel := s.channel.tail, draws := s.draws + 1,
        out := s.out ++ [.frame s.cfg.txId ⟨0x32, s.cfg.bs, s.cfg.stmin, 0, 0, 0, 0, 0⟩ s.answer,
          .ind (.rxError .bufferOverrun)] }

/-- A CF in IDLE is an orphan: no effect, no output (R152). -/
def Obligations.OrphanCfIgnored : Prop :=
  ∀ (f : Frame) (s : State), 0x20 ≤ f.f0.toNat → f.f0.toNat ≤ 0x2F → s.rx.state = .idle →
    exec (.evFrameIn s.cfg.rxId f) s = .next s

/-- A CF with the wrong sequence number ends the reassembly with SequenceMismatch (R153, AbortRx R161). -/
def Obligations.WrongSequenceNumberAborts : Prop :=
  ∀ (f : Frame) (s : State), 0x20 ≤ f.f0.toNat → f.f0.toNat ≤ 0x2F → s.rx.state = .awaitCf →
    f.f0.toNat - 0x20 ≠ s.rx.esn.toNat →
      exec (.evFrameIn s.cfg.rxId f) s = .next { s with
        rx := { s.rx with cfArmed := false, guardArmed := false, buf := [], frib := 0, state := .idle },
        out := s.out ++ [.ind (.rxError .sequenceMismatch)] }

/-- A CF with the expected number that leaves the payload short of RX.TOTAL (R154, R156): its 7 bytes are appended,
RX.ESN and RX.FRIB advance, the timeout restarts; at the block boundary RX.FRIB clears and the guard is armed. Nothing
is put out. That RX.FRIB + 1 is a 10-bit sum that wraps is the model's (log 16; the spec bounds RX.FRIB by 585, and no
run reaches a wrap). -/
def Obligations.ConsecutiveFrameAppended : Prop :=
  ∀ (f : Frame) (s : State), s.rx.state = .awaitCf → f.f0.toNat = 0x20 + s.rx.esn.toNat →
    s.rx.buf.length + 7 < s.rx.total.toNat →
      exec (.evFrameIn s.cfg.rxId f) s = .next { s with
        rx := { s.rx with
          buf := s.rx.buf ++ [f.f1, f.f2, f.f3, f.f4, f.f5, f.f6, f.f7], esn := s.rx.esn + 1, cfArmed := true,
          frib := if s.cfg.bs ≠ 0 ∧ (s.rx.frib + 1).toNat = s.cfg.bs.toNat then 0 else s.rx.frib + 1,
          guardArmed := if s.cfg.bs ≠ 0 ∧ (s.rx.frib + 1).toNat = s.cfg.bs.toNat then true else s.rx.guardArmed } }

/-- A CF with the expected number that reaches RX.TOTAL (R154, R155): the payload is delivered, cut to RX.TOTAL bytes,
and the Receiver is IDLE. By decision D10 no Flow Control follows; with P_RX_FC_AFTER_FINAL_BLOCK the guard is armed
when the block is full. RX.FRIB is compared as a 10-bit count (log 16). -/
def Obligations.ConsecutiveFrameCompletes : Prop :=
  ∀ (f : Frame) (s : State), s.rx.state = .awaitCf → f.f0.toNat = 0x20 + s.rx.esn.toNat →
    s.rx.total.toNat ≤ s.rx.buf.length + 7 →
      exec (.evFrameIn s.cfg.rxId f) s = .next { s with
        rx := { s.rx with
          buf := [], esn := s.rx.esn + 1, frib := 0, state := .idle, cfArmed := false,
          guardArmed :=
            if s.params.rxFcAfterFinalBlock = false then false
            else if s.cfg.bs ≠ 0 ∧ (s.rx.frib + 1).toNat = s.cfg.bs.toNat then true
            else s.rx.guardArmed },
        out := s.out ++ [.ind (.rxIndication
          ((s.rx.buf ++ [f.f1, f.f2, f.f3, f.f4, f.f5, f.f6, f.f7]).take s.rx.total.toNat))] }

/-- TMO_RX_CF during a reassembly ends it with ConsecutiveFrameTimeout; a pending guard Flow Control is cancelled too
(R158, AbortRx R161). -/
def Obligations.ConsecutiveFrameTimeoutAborts : Prop :=
  ∀ s : State, s.rx.state = .awaitCf → s.rx.cfArmed = true →
    exec .evTmoRxCf s = .next { s with
      rx := { s.rx with cfArmed := false, guardArmed := false, buf := [], frib := 0, state := .idle },
      out := s.out ++ [.ind (.rxError .consecutiveFrameTimeout)] }

/-- TMO_RX_GUARD sends FC(CTS, CFG.BS, CFG.STMIN) in either RX.STATE; the channel's result is ignored and RX_CF is not
re-armed (R159, EmitFC R162). -/
def Obligations.GuardExpirySendsFlowControl : Prop :=
  ∀ s : State, s.rx.guardArmed = true →
    exec .evTmoRxGuard s = .next { s with
      rx := { s.rx with guardArmed := false },
      channel := s.channel.tail, draws := s.draws + 1,
      out := s.out ++ [.frame s.cfg.txId ⟨0x30, s.cfg.bs, s.cfg.stmin, 0, 0, 0, 0, 0⟩ s.answer] }

/-! ## Dispatch -/

/-- A frame with another identifier is dropped silently: no state change, no output (R167, decisions D2, D28). One that
passes the filter and does not decode writes no register and is reported by FrameErrorInd (R169, decision D17), with the
code the table of R90 gives its f[0] (decisions D5, D6). -/
def Obligations.FilteredOrUndecodableFrame : Prop :=
  (∀ (id : Ident) (f : Frame) (s : State), id ≠ s.cfg.rxId → exec (.evFrameIn id f) s = .next s) ∧
  (∀ (f : Frame) (s : State), 0x08 ≤ f.f0.toNat → f.f0.toNat ≤ 0x0F →
    exec (.evFrameIn s.cfg.rxId f) s =
      .next { s with out := s.out ++ [.ind (.frameErrorInd .lengthOutOfRange)] }) ∧
  (∀ (f : Frame) (s : State), 0x33 ≤ f.f0.toNat →
    exec (.evFrameIn s.cfg.rxId f) s =
      .next { s with out := s.out ++ [.ind (.frameErrorInd .malformedHeader)] })

/-- EV.RSV, both rows: an event word with a reserved op code is refused (R93, R171, decision D19). -/
def Obligations.ReservedOpCodesRefused : Prop :=
  ∀ s : State, exec .evRsv0 s = .refused .reservedOpCode ∧
    ∀ x : BitVec 3, exec (.evRsv8 x) s = .refused .reservedOpCode

/-! ## Rules about every instruction -/

/-- Every well-formed instruction but the two reserved rows completes in every state: no register value stops it (R178,
R187). No step faults (R178: "No fault state"). -/
def Obligations.EveryInstructionCompletes : Prop :=
  (∀ (i : Instr) (s : State), i.wf = true → isReserved i = false → ∃ t, exec i s = .next t) ∧
  (∀ (s : State) (r : Fault), step s ≠ .fault r)

/-- No step changes CFG or the parameters (R25, R51, R201), and none gives an input back or invents one. -/
def Obligations.StepKeepsConfiguration : Prop :=
  ∀ s t : State, step s = .next t → t.cfg = s.cfg ∧ t.params = s.params ∧ t.inputs = s.inputs.tail

/-- The codec has no state (R126): a codec request changes nothing but the list of codec results, by one entry that
depends on the request alone. -/
def Obligations.CodecHasNoState : Prop :=
  ∀ (i : Instr), isCodec i = true → i.wf = true →
    ∃ r : CodecResult, ∀ s : State, exec i s = .next { s with codec := s.codec ++ [r] }

/-- No event of the Sender reads or writes an RX field (R50, R51): with another Receiver state in its place, the step
does the same and leaves that state alone. -/
def Obligations.SenderIndependentOfReceiver : Prop :=
  ∀ (i : Instr) (s t : State) (u : Rx),
    (i = .evTxCancel ∨ i = .evTmoTxFc ∨ i = .evTmoTxStmin ∨ (∃ p, i = .evTxStart p) ∨
      ∃ id f, i = .evFrameIn id f ∧ carriesFc f = true) →
    exec i s = .next t → t.rx = s.rx ∧ exec i { s with rx := u } = .next { t with rx := u }

/-- No event of the Receiver reads or writes a TX field (R50, R51, R157). -/
def Obligations.ReceiverIndependentOfSender : Prop :=
  ∀ (i : Instr) (s t : State) (u : Tx),
    (i = .evTmoRxCf ∨ i = .evTmoRxGuard ∨ ∃ id f, i = .evFrameIn id f ∧ carriesFc f = false) →
    exec i s = .next t → t.tx = s.tx ∧ exec i { s with tx := u } = .next { t with tx := u }

/-- The Sender reads neither CFG.BS nor CFG.STMIN (R146). -/
def Obligations.SenderIgnoresAdvertisedValues : Prop :=
  ∀ (i : Instr) (s t : State) (b m : Byte),
    (i = .evTxCancel ∨ i = .evTmoTxFc ∨ i = .evTmoTxStmin ∨ (∃ p, i = .evTxStart p) ∨
      ∃ id f, i = .evFrameIn id f ∧ carriesFc f = true) →
    exec i s = .next t →
      exec i { s with cfg := { s.cfg with bs := b, stmin := m } } =
        .next { t with cfg := { s.cfg with bs := b, stmin := m } }

/-- The outputs of an earlier step precede those of a later one (R72): a step only adds at the end. It sends at most one
frame, and it uses one answer of the channel for each frame it sends (R17, R69). -/
def Obligations.OutputsAppendedOneFrameAtMost : Prop :=
  ∀ s t : State, step s = .next t →
    t.out = s.out ++ newOut s t ∧
    ((newOut s t).filter isFrame).length ≤ 1 ∧
    t.draws = s.draws + ((newOut s t).filter isFrame).length ∧
    t.channel = s.channel.drop ((newOut s t).filter isFrame).length ∧
    ∃ c, t.codec = s.codec ++ c

/-- Every frame the block sends carries CFG.TX_ID (decision D2) and encodes a PDU in the encoder's domain (R112), so the
encoder refuses none of them, and no sent frame fails to decode. -/
def Obligations.SentFramesAreWellFormed : Prop :=
  ∀ (s t : State) (id : Ident) (f : Frame) (r : ChannelResult), step s = .next t →
    Output.frame id f r ∈ newOut s t →
      id = s.cfg.txId ∧ (∃ p : Pdu, p.wf = true ∧ f = encodePdu p) ∧ ∀ e, codecDecode f ≠ .error e

/-- A step that produces TxConfirm leaves TX.STATE = IDLE with both of the Sender's timers disarmed and nothing left in
TX.REMAINING, and from IDLE no step but a TX_START's sends another frame than a Flow Control, so no later step emits a
frame of that transfer (R145). -/
def Obligations.TxConfirmLeavesSenderIdle : Prop :=
  (∀ (s t : State) (c : TxCode), inv s → step s = .next t → Output.ind (.txConfirm c) ∈ newOut s t →
    t.tx.state = .idle ∧ t.tx.fcArmed = false ∧ t.tx.stminArmed = false ∧ t.tx.remaining = []) ∧
  (∀ (i : Instr) (s t : State), s.tx.state = .idle → (∀ p, i ≠ .evTxStart p) → exec i s = .next t →
    t.tx.state = .idle ∧
    ∀ (id : Ident) (f : Frame) (r : ChannelResult), Output.frame id f r ∈ newOut s t → carriesFc f = true)

/-- An accepted transfer gets exactly one TxConfirm (R29): it comes in the step that takes the Sender from a transfer to
IDLE, and in the step of an accepted TX_START that does not begin to wait; no other step produces one. The reset signal,
which abandons a transfer silently (R197), is not such a step. -/
def Obligations.OneTxConfirmPerTransfer : Prop :=
  ∀ s t : State, s.inputs.head? ≠ some .reset → step s = .next t →
    ((newOut s t).filter isTxConfirm).length =
      if s.tx.state ≠ .idle ∧ t.tx.state = .idle then 1
      else if s.tx.state = .idle ∧ t.tx.state = .idle ∧ Output.resp .accepted ∈ newOut s t then 1
      else 0

/-- A reassembly ends in at most one indication (R165): a step that takes the Receiver from AWAIT_CF to IDLE produces
exactly one RxIndication or RxError, a step that leaves it in AWAIT_CF produces none. -/
def Obligations.OneIndicationPerReception : Prop :=
  ∀ s t : State, s.inputs.head? ≠ some .reset → s.rx.state = .awaitCf → step s = .next t →
    ((newOut s t).filter isRxEnd).length = if t.rx.state = .idle then 1 else 0

/-- The length law (R163): after every step RX.BUF is no longer than max(6, RX.TOTAL), and the RxIndication of a
multi-frame transfer carries exactly RX.TOTAL bytes, what RX.BUF held first and then the CF's data in order, so no payload
shorter than declared is delivered (R166). -/
def Obligations.IndicationHasDeclaredLength : Prop :=
  (∀ s t : State, inv s → step s = .next t → t.rx.buf.length ≤ max 6 t.rx.total.toNat) ∧
  (∀ (s t : State) (f : Frame) (p : List Byte), inv s → s.rx.state = .awaitCf →
    0x20 ≤ f.f0.toNat → f.f0.toNat ≤ 0x2F → exec (.evFrameIn s.cfg.rxId f) s = .next t →
    Output.ind (.rxIndication p) ∈ newOut s t →
      p.length = s.rx.total.toNat ∧
      p = (s.rx.buf ++ [f.f1, f.f2, f.f3, f.f4, f.f5, f.f6, f.f7]).take s.rx.total.toNat)

/-- STminDuration (R124, decision D8), in microseconds, as the duration of TX_STMIN (R39). -/
def Obligations.StminPauseDuration : Prop :=
  ∀ s : State,
    (s.tx.stmin.toNat ≤ 0x7F → timerDuration .txStmin s = s.tx.stmin.toNat * 1000) ∧
    (0xF1 ≤ s.tx.stmin.toNat → s.tx.stmin.toNat ≤ 0xF9 →
      timerDuration .txStmin s = (s.tx.stmin.toNat - 0xF0) * 100) ∧
    ((0x80 ≤ s.tx.stmin.toNat ∧ s.tx.stmin.toNat ≤ 0xF0) ∨ 0xFA ≤ s.tx.stmin.toNat →
      timerDuration .txStmin s = 127000)

/-! ## Invariants, and whole transfers -/

/-- Every step keeps the invariants of both units (R48, R49), from every state that meets them. -/
def Obligations.StepKeepsInvariants : Prop :=
  ∀ s t : State, inv s → step s = .next t → inv t

/-- A whole transfer of the Sender (R131 to R133, R138, R142, R144, R63): a payload of 8 to 4095 bytes started in IDLE,
the peer answering with the same FC(CTS) of any block size at the start and after each full block, and an expiry of
TX_STMIN before every other CF, all sends answered ok. Exactly the FF and the `ceil((L - 6) / 7)` CFs of the payload go
out, in order, and the transfer ends with Success, TX.REMAINING empty, and TX.SN one past the last CF's number, mod 16. -/
def Obligations.SenderTransfersPayload : Prop :=
  ∀ (p : List Byte) (fc : Frame) (s : State) (more : List ChannelResult),
    s.tx.state = .idle → 8 ≤ p.length → p.length ≤ 4095 → fc.f0 = 0x30 →
    s.channel = List.replicate (cfCount p.length + 1) .ok ++ more →
      ∃ t, execAll (.evTxStart p :: sendEvents s.cfg.rxId fc (cfCount p.length)) s = .next t ∧
        t.out = s.out ++ [.resp .accepted] ++
          (payloadFf p :: payloadCfs p).map (fun f => .frame s.cfg.txId f .ok) ++ [.ind (.txConfirm .success)] ∧
        t.tx.state = .idle ∧ t.tx.remaining = [] ∧ t.tx.sn = BitVec.ofNat 4 (cfCount p.length + 1) ∧
        t.channel = more ∧ t.rx = s.rx

/-- The Receiver puts a payload together again (R150, R154, R155, R163, R164, R63): given, in any state, the FF and the
CFs of a payload of 8 to 4095 bytes within its capacity, it sends one Flow Control and delivers exactly that payload,
whatever CFG.BS is (the guard's Flow Controls come with TMO_RX_GUARD, which this run has none of). -/
def Obligations.ReceiverReassemblesPayload : Prop :=
  ∀ (p : List Byte) (s : State),
    8 ≤ p.length → p.length ≤ 4095 → p.length ≤ s.params.rxBufCap.toNat →
      ∃ t, execAll ((payloadFf p :: payloadCfs p).map (fun f => .evFrameIn s.cfg.rxId f)) s = .next t ∧
        t.out = s.out ++
          [.frame s.cfg.txId ⟨0x30, s.cfg.bs, s.cfg.stmin, 0, 0, 0, 0, 0⟩ s.answer, .ind (.rxIndication p)] ∧
        t.rx.state = .idle ∧ t.rx.buf = [] ∧ t.rx.cfArmed = false ∧ t.tx = s.tx
end

