-- ==== Sys2Proof/Laws/Operands.lean ====
section
/-! SUPPORT. What the operand forms compute: nibbles, FF_DL, the bytes of a frame, padding and slices. -/

namespace Sys2Proof

@[simp] theorem hiNibble_byteOf (h l : Nibble) : hiNibble (byteOf h l) = h := by
  revert h l; decide

@[simp] theorem loNibble_byteOf (h l : Nibble) : loNibble (byteOf h l) = l := by
  revert h l; decide

@[simp] theorem byteOf_hiNibble_loNibble (b : Byte) : byteOf (hiNibble b) (loNibble b) = b := by
  revert b; decide

theorem hiNibble_toNat (b : Byte) : (hiNibble b).toNat = b.toNat / 16 := by
  revert b; decide

theorem loNibble_toNat (b : Byte) : (loNibble b).toNat = b.toNat % 16 := by
  revert b; decide

theorem byteOf_toNat (h l : Nibble) : (byteOf h l).toNat = h.toNat * 16 + l.toNat := by
  revert h l; decide

/-- FF_DL is big-endian (R64, R85). -/
theorem ffLen_toNat (a b : Byte) : (ffLen a b).toNat = (a.toNat % 16) * 256 + b.toNat := by
  have ha : (BitVec.zeroExtend 12 (loNibble a) <<< 8).toNat = (a.toNat % 16) * 256 := by
    have := loNibble_toNat a
    simp [BitVec.toNat_shiftLeft, Nat.shiftLeft_eq, this]
    omega
  rw [ffLen, BitVec.toNat_or, ha]
  have hb : (BitVec.zeroExtend 12 b).toNat = b.toNat := by
    have := b.isLt
    simp
    omega
  rw [hb, show (a.toNat % 16) * 256 = 2 ^ 8 * (a.toNat % 16) by omega, ← Nat.two_pow_add_eq_or_of_lt b.isLt]

theorem ffLenHi_toNat (n : BitVec 12) : (ffLenHi n).toNat = n.toNat / 256 := by
  have := n.isLt
  simp [ffLenHi, BitVec.extractLsb'_toNat, Nat.shiftRight_eq_div_pow]
  omega

theorem ffLenLo_toNat (n : BitVec 12) : (ffLenLo n).toNat = n.toNat % 256 := by
  simp [ffLenLo, BitVec.extractLsb'_toNat]

/-- Decoding the two length bytes that encode n gives n (R85). -/
@[simp] theorem ffLen_of_halves (h : Nibble) (n : BitVec 12) : ffLen (byteOf h (ffLenHi n)) (ffLenLo n) = n := by
  apply BitVec.eq_of_toNat_eq
  rw [ffLen_toNat, ← loNibble_toNat, loNibble_byteOf, ffLenHi_toNat, ffLenLo_toNat]
  omega

@[simp] theorem Frame.bytes_length (f : Frame) : f.bytes.length = 8 := rfl

@[simp] theorem Frame.ofBytes_bytes (f : Frame) : Frame.ofBytes f.bytes = f := rfl

/-- A frame holds the 8 bytes it is made of. -/
theorem Frame.bytes_ofBytes {s : List Byte} (h : s.length = 8) : (Frame.ofBytes s).bytes = s := by
  match s, h with
  | [_, _, _, _, _, _, _, _], _ => rfl

@[simp] theorem Frame.ofBytes_f0 (b : Byte) (s : List Byte) : (Frame.ofBytes (b :: s)).f0 = b := rfl

@[simp] theorem Frame.ofBytes_f1 (a b : Byte) (s : List Byte) : (Frame.ofBytes (a :: b :: s)).f1 = b := rfl

@[simp] theorem Frame.ofBytes_f2 (a b c : Byte) (s : List Byte) : (Frame.ofBytes (a :: b :: c :: s)).f2 = c := rfl

theorem pad0_length {s : List Byte} {n : Nat} (h : s.length ≤ n) : (pad0 s n).length = n := by
  simp [pad0]; omega

/-- Padding a full sequence adds nothing. -/
theorem pad0_full {s : List Byte} {n : Nat} (h : n ≤ s.length) : pad0 s n = s := by
  simp [pad0, Nat.sub_eq_zero_of_le h]

/-- The padding stands after the sequence (R110). -/
theorem pad0_take (s : List Byte) (n : Nat) : (pad0 s n).take s.length = s := by
  simp [pad0]

theorem slice_length (a b : Nat) (s : List Byte) : (slice a b s).length = min (b - a) (s.length - a) := by
  simp [slice]

theorem slice_zero (n : Nat) (s : List Byte) : slice 0 n s = s.take n := by
  simp [slice]

theorem slice_all (a n : Nat) (s : List Byte) (h : s.length ≤ n) : slice a n s = s.drop a := by
  simp [slice]
  omega

end Sys2Proof
end

