-- ==== Sys2Proof/Laws/State.lean ====
section
/-! SUPPORT. What each update of the state does to each field: one lemma per field per update, so that no later proof
unfolds a record update. -/

namespace Sys2Proof.Machine

@[simp] theorem emit_cfg (o : Output) (s : State) : (emit o s).cfg = s.cfg := rfl
@[simp] theorem emit_params (o : Output) (s : State) : (emit o s).params = s.params := rfl
@[simp] theorem emit_tx (o : Output) (s : State) : (emit o s).tx = s.tx := rfl
@[simp] theorem emit_rx (o : Output) (s : State) : (emit o s).rx = s.rx := rfl
@[simp] theorem emit_inputs (o : Output) (s : State) : (emit o s).inputs = s.inputs := rfl
@[simp] theorem emit_channel (o : Output) (s : State) : (emit o s).channel = s.channel := rfl
@[simp] theorem emit_draws (o : Output) (s : State) : (emit o s).draws = s.draws := rfl
@[simp] theorem emit_out (o : Output) (s : State) : (emit o s).out = s.out ++ [o] := rfl
@[simp] theorem emit_codec (o : Output) (s : State) : (emit o s).codec = s.codec := rfl

@[simp] theorem indicate_cfg (e : Indication) (s : State) : (indicate e s).cfg = s.cfg := rfl
@[simp] theorem indicate_params (e : Indication) (s : State) : (indicate e s).params = s.params := rfl
@[simp] theorem indicate_tx (e : Indication) (s : State) : (indicate e s).tx = s.tx := rfl
@[simp] theorem indicate_rx (e : Indication) (s : State) : (indicate e s).rx = s.rx := rfl
@[simp] theorem indicate_inputs (e : Indication) (s : State) : (indicate e s).inputs = s.inputs := rfl
@[simp] theorem indicate_channel (e : Indication) (s : State) : (indicate e s).channel = s.channel := rfl
@[simp] theorem indicate_draws (e : Indication) (s : State) : (indicate e s).draws = s.draws := rfl
@[simp] theorem indicate_out (e : Indication) (s : State) : (indicate e s).out = s.out ++ [.ind e] := rfl
@[simp] theorem indicate_codec (e : Indication) (s : State) : (indicate e s).codec = s.codec := rfl

@[simp] theorem respond_cfg (r : Response) (s : State) : (respond r s).cfg = s.cfg := rfl
@[simp] theorem respond_params (r : Response) (s : State) : (respond r s).params = s.params := rfl
@[simp] theorem respond_tx (r : Response) (s : State) : (respond r s).tx = s.tx := rfl
@[simp] theorem respond_rx (r : Response) (s : State) : (respond r s).rx = s.rx := rfl
@[simp] theorem respond_inputs (r : Response) (s : State) : (respond r s).inputs = s.inputs := rfl
@[simp] theorem respond_channel (r : Response) (s : State) : (respond r s).channel = s.channel := rfl
@[simp] theorem respond_draws (r : Response) (s : State) : (respond r s).draws = s.draws := rfl
@[simp] theorem respond_out (r : Response) (s : State) : (respond r s).out = s.out ++ [.resp r] := rfl
@[simp] theorem respond_codec (r : Response) (s : State) : (respond r s).codec = s.codec := rfl

@[simp] theorem channelSend_cfg (id : Ident) (f : Frame) (s : State) : (channelSend id f s).cfg = s.cfg := rfl
@[simp] theorem channelSend_params (id : Ident) (f : Frame) (s : State) : (channelSend id f s).params = s.params := rfl
@[simp] theorem channelSend_tx (id : Ident) (f : Frame) (s : State) : (channelSend id f s).tx = s.tx := rfl
@[simp] theorem channelSend_rx (id : Ident) (f : Frame) (s : State) : (channelSend id f s).rx = s.rx := rfl
@[simp] theorem channelSend_inputs (id : Ident) (f : Frame) (s : State) : (channelSend id f s).inputs = s.inputs := rfl
@[simp] theorem channelSend_channel (id : Ident) (f : Frame) (s : State) : (channelSend id f s).channel = s.channel.tail := rfl
@[simp] theorem channelSend_draws (id : Ident) (f : Frame) (s : State) : (channelSend id f s).draws = s.draws + 1 := rfl
@[simp] theorem channelSend_out (id : Ident) (f : Frame) (s : State) : (channelSend id f s).out = s.out ++ [.frame id f s.answer] := rfl
@[simp] theorem channelSend_codec (id : Ident) (f : Frame) (s : State) : (channelSend id f s).codec = s.codec := rfl

@[simp] theorem codecReturn_cfg (r : CodecResult) (s : State) : (codecReturn r s).cfg = s.cfg := rfl
@[simp] theorem codecReturn_params (r : CodecResult) (s : State) : (codecReturn r s).params = s.params := rfl
@[simp] theorem codecReturn_tx (r : CodecResult) (s : State) : (codecReturn r s).tx = s.tx := rfl
@[simp] theorem codecReturn_rx (r : CodecResult) (s : State) : (codecReturn r s).rx = s.rx := rfl
@[simp] theorem codecReturn_inputs (r : CodecResult) (s : State) : (codecReturn r s).inputs = s.inputs := rfl
@[simp] theorem codecReturn_channel (r : CodecResult) (s : State) : (codecReturn r s).channel = s.channel := rfl
@[simp] theorem codecReturn_draws (r : CodecResult) (s : State) : (codecReturn r s).draws = s.draws := rfl
@[simp] theorem codecReturn_out (r : CodecResult) (s : State) : (codecReturn r s).out = s.out := rfl
@[simp] theorem codecReturn_codec (r : CodecResult) (s : State) : (codecReturn r s).codec = s.codec ++ [r] := rfl

@[simp] theorem setTxState_cfg (st : TxState) (s : State) : (setTxState st s).cfg = s.cfg := rfl
@[simp] theorem setTxState_params (st : TxState) (s : State) : (setTxState st s).params = s.params := rfl
@[simp] theorem setTxState_tx (st : TxState) (s : State) : (setTxState st s).tx = { s.tx with state := st } := rfl
@[simp] theorem setTxState_rx (st : TxState) (s : State) : (setTxState st s).rx = s.rx := rfl
@[simp] theorem setTxState_inputs (st : TxState) (s : State) : (setTxState st s).inputs = s.inputs := rfl
@[simp] theorem setTxState_channel (st : TxState) (s : State) : (setTxState st s).channel = s.channel := rfl
@[simp] theorem setTxState_draws (st : TxState) (s : State) : (setTxState st s).draws = s.draws := rfl
@[simp] theorem setTxState_out (st : TxState) (s : State) : (setTxState st s).out = s.out := rfl
@[simp] theorem setTxState_codec (st : TxState) (s : State) : (setTxState st s).codec = s.codec := rfl

@[simp] theorem abortTx_cfg (c : TxCode) (s : State) : (abortTx c s).cfg = s.cfg := rfl
@[simp] theorem abortTx_params (c : TxCode) (s : State) : (abortTx c s).params = s.params := rfl
@[simp] theorem abortTx_tx (c : TxCode) (s : State) : (abortTx c s).tx = { s.tx with fcArmed := false, stminArmed := false, remaining := [], state := .idle } := rfl
@[simp] theorem abortTx_rx (c : TxCode) (s : State) : (abortTx c s).rx = s.rx := rfl
@[simp] theorem abortTx_inputs (c : TxCode) (s : State) : (abortTx c s).inputs = s.inputs := rfl
@[simp] theorem abortTx_channel (c : TxCode) (s : State) : (abortTx c s).channel = s.channel := rfl
@[simp] theorem abortTx_draws (c : TxCode) (s : State) : (abortTx c s).draws = s.draws := rfl
@[simp] theorem abortTx_out (c : TxCode) (s : State) : (abortTx c s).out = s.out ++ [.ind (.txConfirm c)] := rfl
@[simp] theorem abortTx_codec (c : TxCode) (s : State) : (abortTx c s).codec = s.codec := rfl

@[simp] theorem dropReception_cfg (s : State) : (dropReception s).cfg = s.cfg := rfl
@[simp] theorem dropReception_params (s : State) : (dropReception s).params = s.params := rfl
@[simp] theorem dropReception_tx (s : State) : (dropReception s).tx = s.tx := rfl
@[simp] theorem dropReception_rx (s : State) : (dropReception s).rx = { s.rx with cfArmed := false, guardArmed := false, buf := [], frib := 0, state := .idle } := rfl
@[simp] theorem dropReception_inputs (s : State) : (dropReception s).inputs = s.inputs := rfl
@[simp] theorem dropReception_channel (s : State) : (dropReception s).channel = s.channel := rfl
@[simp] theorem dropReception_draws (s : State) : (dropReception s).draws = s.draws := rfl
@[simp] theorem dropReception_out (s : State) : (dropReception s).out = s.out := rfl
@[simp] theorem dropReception_codec (s : State) : (dropReception s).codec = s.codec := rfl

@[simp] theorem abortRx_cfg (c : RxCode) (s : State) : (abortRx c s).cfg = s.cfg := rfl
@[simp] theorem abortRx_params (c : RxCode) (s : State) : (abortRx c s).params = s.params := rfl
@[simp] theorem abortRx_tx (c : RxCode) (s : State) : (abortRx c s).tx = s.tx := rfl
@[simp] theorem abortRx_rx (c : RxCode) (s : State) : (abortRx c s).rx = { s.rx with cfArmed := false, guardArmed := false, buf := [], frib := 0, state := .idle } := rfl
@[simp] theorem abortRx_inputs (c : RxCode) (s : State) : (abortRx c s).inputs = s.inputs := rfl
@[simp] theorem abortRx_channel (c : RxCode) (s : State) : (abortRx c s).channel = s.channel := rfl
@[simp] theorem abortRx_draws (c : RxCode) (s : State) : (abortRx c s).draws = s.draws := rfl
@[simp] theorem abortRx_out (c : RxCode) (s : State) : (abortRx c s).out = s.out ++ [.ind (.rxError c)] := rfl
@[simp] theorem abortRx_codec (c : RxCode) (s : State) : (abortRx c s).codec = s.codec := rfl

@[simp] theorem assertReset_cfg (s : State) : (assertReset s).cfg = s.cfg := rfl
@[simp] theorem assertReset_params (s : State) : (assertReset s).params = s.params := rfl
@[simp] theorem assertReset_tx (s : State) : (assertReset s).tx = Tx.reset := rfl
@[simp] theorem assertReset_rx (s : State) : (assertReset s).rx = Rx.reset := rfl
@[simp] theorem assertReset_inputs (s : State) : (assertReset s).inputs = s.inputs := rfl
@[simp] theorem assertReset_channel (s : State) : (assertReset s).channel = s.channel := rfl
@[simp] theorem assertReset_draws (s : State) : (assertReset s).draws = s.draws := rfl
@[simp] theorem assertReset_out (s : State) : (assertReset s).out = s.out := rfl
@[simp] theorem assertReset_codec (s : State) : (assertReset s).codec = s.codec := rfl

@[simp] theorem cfSent_cfg (n : Nat) (s : State) : (cfSent n s).cfg = s.cfg := rfl
@[simp] theorem cfSent_params (n : Nat) (s : State) : (cfSent n s).params = s.params := rfl
@[simp] theorem cfSent_tx (n : Nat) (s : State) : (cfSent n s).tx = { s.tx with remaining := s.tx.remaining.drop n, sn := s.tx.sn + 1, fsib := s.tx.fsib + 1 } := rfl
@[simp] theorem cfSent_rx (n : Nat) (s : State) : (cfSent n s).rx = s.rx := rfl
@[simp] theorem cfSent_inputs (n : Nat) (s : State) : (cfSent n s).inputs = s.inputs := rfl
@[simp] theorem cfSent_channel (n : Nat) (s : State) : (cfSent n s).channel = s.channel := rfl
@[simp] theorem cfSent_draws (n : Nat) (s : State) : (cfSent n s).draws = s.draws := rfl
@[simp] theorem cfSent_out (n : Nat) (s : State) : (cfSent n s).out = s.out := rfl
@[simp] theorem cfSent_codec (n : Nat) (s : State) : (cfSent n s).codec = s.codec := rfl

@[simp] theorem ctsRecorded_cfg (bs st : Byte) (s : State) : (ctsRecorded bs st s).cfg = s.cfg := rfl
@[simp] theorem ctsRecorded_params (bs st : Byte) (s : State) : (ctsRecorded bs st s).params = s.params := rfl
@[simp] theorem ctsRecorded_tx (bs st : Byte) (s : State) : (ctsRecorded bs st s).tx = { s.tx with fcArmed := false, bs := bs, stmin := st, fsib := 0 } := rfl
@[simp] theorem ctsRecorded_rx (bs st : Byte) (s : State) : (ctsRecorded bs st s).rx = s.rx := rfl
@[simp] theorem ctsRecorded_inputs (bs st : Byte) (s : State) : (ctsRecorded bs st s).inputs = s.inputs := rfl
@[simp] theorem ctsRecorded_channel (bs st : Byte) (s : State) : (ctsRecorded bs st s).channel = s.channel := rfl
@[simp] theorem ctsRecorded_draws (bs st : Byte) (s : State) : (ctsRecorded bs st s).draws = s.draws := rfl
@[simp] theorem ctsRecorded_out (bs st : Byte) (s : State) : (ctsRecorded bs st s).out = s.out := rfl
@[simp] theorem ctsRecorded_codec (bs st : Byte) (s : State) : (ctsRecorded bs st s).codec = s.codec := rfl

@[simp] theorem ffSent_cfg (p : List Byte) (s : State) : (ffSent p s).cfg = s.cfg := rfl
@[simp] theorem ffSent_params (p : List Byte) (s : State) : (ffSent p s).params = s.params := rfl
@[simp] theorem ffSent_tx (p : List Byte) (s : State) : (ffSent p s).tx = { s.tx with remaining := p.drop 6, sn := 1, fsib := 0, state := .awaitFirstFc, fcArmed := true } := rfl
@[simp] theorem ffSent_rx (p : List Byte) (s : State) : (ffSent p s).rx = s.rx := rfl
@[simp] theorem ffSent_inputs (p : List Byte) (s : State) : (ffSent p s).inputs = s.inputs := rfl
@[simp] theorem ffSent_channel (p : List Byte) (s : State) : (ffSent p s).channel = s.channel := rfl
@[simp] theorem ffSent_draws (p : List Byte) (s : State) : (ffSent p s).draws = s.draws := rfl
@[simp] theorem ffSent_out (p : List Byte) (s : State) : (ffSent p s).out = s.out := rfl
@[simp] theorem ffSent_codec (p : List Byte) (s : State) : (ffSent p s).codec = s.codec := rfl

@[simp] theorem ffAccepted_cfg (n : Nat) (d : List Byte) (s : State) : (ffAccepted n d s).cfg = s.cfg := rfl
@[simp] theorem ffAccepted_params (n : Nat) (d : List Byte) (s : State) : (ffAccepted n d s).params = s.params := rfl
@[simp] theorem ffAccepted_tx (n : Nat) (d : List Byte) (s : State) : (ffAccepted n d s).tx = s.tx := rfl
@[simp] theorem ffAccepted_rx (n : Nat) (d : List Byte) (s : State) : (ffAccepted n d s).rx = { s.rx with guardArmed := false, buf := d, total := BitVec.ofNat 12 n, esn := 1, frib := 0, state := .awaitCf, cfArmed := true } := rfl
@[simp] theorem ffAccepted_inputs (n : Nat) (d : List Byte) (s : State) : (ffAccepted n d s).inputs = s.inputs := rfl
@[simp] theorem ffAccepted_channel (n : Nat) (d : List Byte) (s : State) : (ffAccepted n d s).channel = s.channel := rfl
@[simp] theorem ffAccepted_draws (n : Nat) (d : List Byte) (s : State) : (ffAccepted n d s).draws = s.draws := rfl
@[simp] theorem ffAccepted_out (n : Nat) (d : List Byte) (s : State) : (ffAccepted n d s).out = s.out := rfl
@[simp] theorem ffAccepted_codec (n : Nat) (d : List Byte) (s : State) : (ffAccepted n d s).codec = s.codec := rfl

@[simp] theorem cfAppended_cfg (d : List Byte) (s : State) : (cfAppended d s).cfg = s.cfg := rfl
@[simp] theorem cfAppended_params (d : List Byte) (s : State) : (cfAppended d s).params = s.params := rfl
@[simp] theorem cfAppended_tx (d : List Byte) (s : State) : (cfAppended d s).tx = s.tx := rfl
@[simp] theorem cfAppended_rx (d : List Byte) (s : State) : (cfAppended d s).rx = { s.rx with buf := s.rx.buf ++ slice 0 (cfTake s) d, esn := s.rx.esn + 1, frib := s.rx.frib + 1, cfArmed := true } := rfl
@[simp] theorem cfAppended_inputs (d : List Byte) (s : State) : (cfAppended d s).inputs = s.inputs := rfl
@[simp] theorem cfAppended_channel (d : List Byte) (s : State) : (cfAppended d s).channel = s.channel := rfl
@[simp] theorem cfAppended_draws (d : List Byte) (s : State) : (cfAppended d s).draws = s.draws := rfl
@[simp] theorem cfAppended_out (d : List Byte) (s : State) : (cfAppended d s).out = s.out := rfl
@[simp] theorem cfAppended_codec (d : List Byte) (s : State) : (cfAppended d s).codec = s.codec := rfl

@[simp] theorem setTimer_cfg (t : Timer) (b : Bool) (s : State) : (setTimer t b s).cfg = s.cfg := by cases t <;> rfl
@[simp] theorem setTimer_params (t : Timer) (b : Bool) (s : State) : (setTimer t b s).params = s.params := by cases t <;> rfl
@[simp] theorem setTimer_inputs (t : Timer) (b : Bool) (s : State) : (setTimer t b s).inputs = s.inputs := by cases t <;> rfl
@[simp] theorem setTimer_channel (t : Timer) (b : Bool) (s : State) : (setTimer t b s).channel = s.channel := by cases t <;> rfl
@[simp] theorem setTimer_draws (t : Timer) (b : Bool) (s : State) : (setTimer t b s).draws = s.draws := by cases t <;> rfl
@[simp] theorem setTimer_out (t : Timer) (b : Bool) (s : State) : (setTimer t b s).out = s.out := by cases t <;> rfl
@[simp] theorem setTimer_codec (t : Timer) (b : Bool) (s : State) : (setTimer t b s).codec = s.codec := by cases t <;> rfl

@[simp] theorem arm_cfg (t : Timer) (s : State) : (arm t s).cfg = s.cfg := by cases t <;> rfl
@[simp] theorem arm_params (t : Timer) (s : State) : (arm t s).params = s.params := by cases t <;> rfl
@[simp] theorem arm_inputs (t : Timer) (s : State) : (arm t s).inputs = s.inputs := by cases t <;> rfl
@[simp] theorem arm_channel (t : Timer) (s : State) : (arm t s).channel = s.channel := by cases t <;> rfl
@[simp] theorem arm_draws (t : Timer) (s : State) : (arm t s).draws = s.draws := by cases t <;> rfl
@[simp] theorem arm_out (t : Timer) (s : State) : (arm t s).out = s.out := by cases t <;> rfl
@[simp] theorem arm_codec (t : Timer) (s : State) : (arm t s).codec = s.codec := by cases t <;> rfl

@[simp] theorem disarm_cfg (t : Timer) (s : State) : (disarm t s).cfg = s.cfg := by cases t <;> rfl
@[simp] theorem disarm_params (t : Timer) (s : State) : (disarm t s).params = s.params := by cases t <;> rfl
@[simp] theorem disarm_inputs (t : Timer) (s : State) : (disarm t s).inputs = s.inputs := by cases t <;> rfl
@[simp] theorem disarm_channel (t : Timer) (s : State) : (disarm t s).channel = s.channel := by cases t <;> rfl
@[simp] theorem disarm_draws (t : Timer) (s : State) : (disarm t s).draws = s.draws := by cases t <;> rfl
@[simp] theorem disarm_out (t : Timer) (s : State) : (disarm t s).out = s.out := by cases t <;> rfl
@[simp] theorem disarm_codec (t : Timer) (s : State) : (disarm t s).codec = s.codec := by cases t <;> rfl

@[simp] theorem arm_txFc_tx (s : State) : (arm .txFc s).tx = { s.tx with fcArmed := true } := rfl
@[simp] theorem arm_txFc_rx (s : State) : (arm .txFc s).rx = s.rx := rfl
@[simp] theorem arm_txStmin_tx (s : State) : (arm .txStmin s).tx = { s.tx with stminArmed := true } := rfl
@[simp] theorem arm_txStmin_rx (s : State) : (arm .txStmin s).rx = s.rx := rfl
@[simp] theorem arm_rxCf_tx (s : State) : (arm .rxCf s).tx = s.tx := rfl
@[simp] theorem arm_rxCf_rx (s : State) : (arm .rxCf s).rx = { s.rx with cfArmed := true } := rfl
@[simp] theorem arm_rxGuard_tx (s : State) : (arm .rxGuard s).tx = s.tx := rfl
@[simp] theorem arm_rxGuard_rx (s : State) : (arm .rxGuard s).rx = { s.rx with guardArmed := true } := rfl

@[simp] theorem disarm_txFc_tx (s : State) : (disarm .txFc s).tx = { s.tx with fcArmed := false } := rfl
@[simp] theorem disarm_txFc_rx (s : State) : (disarm .txFc s).rx = s.rx := rfl
@[simp] theorem disarm_txStmin_tx (s : State) : (disarm .txStmin s).tx = { s.tx with stminArmed := false } := rfl
@[simp] theorem disarm_txStmin_rx (s : State) : (disarm .txStmin s).rx = s.rx := rfl
@[simp] theorem disarm_rxCf_tx (s : State) : (disarm .rxCf s).tx = s.tx := rfl
@[simp] theorem disarm_rxCf_rx (s : State) : (disarm .rxCf s).rx = { s.rx with cfArmed := false } := rfl
@[simp] theorem disarm_rxGuard_tx (s : State) : (disarm .rxGuard s).tx = s.tx := rfl
@[simp] theorem disarm_rxGuard_rx (s : State) : (disarm .rxGuard s).rx = { s.rx with guardArmed := false } := rfl

/-- The channel's answer depends on the two channel fields alone. -/
theorem answer_congr {s t : State} (hc : t.channel = s.channel) (hd : t.draws = s.draws) : t.answer = s.answer := by
  simp [State.answer, hc, hd]

@[simp] theorem emit_answer (o : Output) (s : State) : (emit o s).answer = s.answer := rfl
@[simp] theorem indicate_answer (e : Indication) (s : State) : (indicate e s).answer = s.answer := rfl
@[simp] theorem respond_answer (r : Response) (s : State) : (respond r s).answer = s.answer := rfl
@[simp] theorem ctsRecorded_answer (bs st : Byte) (s : State) : (ctsRecorded bs st s).answer = s.answer := rfl
@[simp] theorem disarm_answer (t : Timer) (s : State) : (disarm t s).answer = s.answer := by cases t <;> rfl
@[simp] theorem arm_answer (t : Timer) (s : State) : (arm t s).answer = s.answer := by cases t <;> rfl
theorem awaitsFc_of_awaitFirstFc {s : State} (h : s.tx.state = .awaitFirstFc) : s.awaitsFc = true := by simp [State.awaitsFc, h]
theorem awaitsFc_of_awaitFc {s : State} (h : s.tx.state = .awaitFc) : s.awaitsFc = true := by simp [State.awaitsFc, h]
theorem awaitsFc_of_idle {s : State} (h : s.tx.state = .idle) : s.awaitsFc = false := by simp [State.awaitsFc, h]
theorem awaitsFc_of_sendingBlock {s : State} (h : s.tx.state = .sendingBlock) : s.awaitsFc = false := by simp [State.awaitsFc, h]

/-- TX.AWAIT_FC reads 1 exactly in the two awaiting states (R38). -/
theorem awaitsFc_iff (s : State) : s.awaitsFc = true ↔ s.tx.state = .awaitFirstFc ∨ s.tx.state = .awaitFc := by
  simp [State.awaitsFc]

/-- Disarming a timer leaves TX.STATE, and so TX.AWAIT_FC, as it was. -/
@[simp] theorem disarm_awaitsFc (t : Timer) (s : State) : (disarm t s).awaitsFc = s.awaitsFc := by cases t <;> rfl

end Sys2Proof.Machine
end

