-- ==== Sys2Proof/Laws/Ops.lean ====
section
/-! SUPPORT. Once for each shared operation, everything it can do; later proofs cite these and do not unfold the
operation. -/

namespace Sys2Proof.Machine

/-! ## Dispatch: what each arm runs -/

@[simp] theorem exec_evTxStart (p : List Byte) (s : State) : exec (.evTxStart p) s = .next (txStart p s) := rfl
@[simp] theorem exec_evTxCancel (s : State) : exec .evTxCancel s = .next (txCancel s) := rfl
@[simp] theorem exec_evFrameIn (id : Ident) (f : Frame) (s : State) :
    exec (.evFrameIn id f) s = .next (frameIn id f s) := rfl
@[simp] theorem exec_evTmoTxFc (s : State) : exec .evTmoTxFc s = .next (tmoTxFc s) := rfl
@[simp] theorem exec_evTmoTxStmin (s : State) : exec .evTmoTxStmin s = .next (tmoTxStmin s) := rfl
@[simp] theorem exec_evTmoRxCf (s : State) : exec .evTmoRxCf s = .next (tmoRxCf s) := rfl
@[simp] theorem exec_evTmoRxGuard (s : State) : exec .evTmoRxGuard s = .next (tmoRxGuard s) := rfl
@[simp] theorem exec_evRsv0 (s : State) : exec .evRsv0 s = .refused .reservedOpCode := rfl
@[simp] theorem exec_evRsv8 (x : BitVec 3) (s : State) : exec (.evRsv8 x) s = .refused .reservedOpCode := rfl

/-- An encode request answers the frame inside the encoder's domain and is refused outside it (R105). -/
theorem encodeRequest_eq (p : Pdu) (s : State) :
    encodeRequest p s = if p.wf then .next (codecReturn (.encoded (encodePdu p)) s) else .refused .pduOutsideDomain :=
  rfl

/-- If an instruction answers a next state, it is one of these: a codec request, which adds one result, or an event. -/
theorem exec_next_cases {i : Instr} {s t : State} (h : exec i s = .next t) :
    (∃ r, t = codecReturn r s) ∨ (∃ p, i = .evTxStart p ∧ t = txStart p s) ∨
    (i = .evTxCancel ∧ t = txCancel s) ∨ (∃ id f, i = .evFrameIn id f ∧ t = frameIn id f s) ∨
    (i = .evTmoTxFc ∧ t = tmoTxFc s) ∨ (i = .evTmoTxStmin ∧ t = tmoTxStmin s) ∨
    (i = .evTmoRxCf ∧ t = tmoRxCf s) ∨ (i = .evTmoRxGuard ∧ t = tmoRxGuard s) := by
  have henc : ∀ p, encodeRequest p s = .next t → ∃ r, t = codecReturn r s := by
    intro p hp
    rw [encodeRequest_eq] at hp
    split at hp
    · exact ⟨_, (Host.Outcome.next.inj hp).symm⟩
    · cases hp
  have hdec : ∀ r, decodeReturn r s = .next t → ∃ r, t = codecReturn r s :=
    fun r hr => ⟨_, (Host.Outcome.next.inj hr).symm⟩
  cases i with
  | encSf l d => exact .inl (henc _ h)
  | encFf n d => exact .inl (henc _ h)
  | encCf n d => exact .inl (henc _ h)
  | encFcCts bs st => exact .inl (henc (.fc .cts bs st) h)
  | encFcWait bs st => exact .inl (henc (.fc .wait bs st) h)
  | encFcOvflw bs st => exact .inl (henc (.fc .ovflw bs st) h)
  | decSf l d => exact .inl (hdec _ h)
  | decSfLenErr x => exact .inl (hdec _ h)
  | decFf n d => exact .inl (hdec _ h)
  | decCf sn d => exact .inl (hdec _ h)
  | decFcCts bs st => exact .inl (hdec _ h)
  | decFcWait bs st => exact .inl (hdec _ h)
  | decFcOvflw bs st => exact .inl (hdec _ h)
  | decFcRsv3 => exact .inl (hdec _ h)
  | decFcRsv4 x => exact .inl (hdec _ h)
  | decFcRsv8 x => exact .inl (hdec _ h)
  | decRsvType4 x => exact .inl (hdec _ h)
  | decRsvType8 x => exact .inl (hdec _ h)
  | evTxStart p => exact .inr (.inl ⟨p, rfl, (Host.Outcome.next.inj h).symm⟩)
  | evTxCancel => exact .inr (.inr (.inl ⟨rfl, (Host.Outcome.next.inj h).symm⟩))
  | evFrameIn id f => exact .inr (.inr (.inr (.inl ⟨id, f, rfl, (Host.Outcome.next.inj h).symm⟩)))
  | evTmoTxFc => exact .inr (.inr (.inr (.inr (.inl ⟨rfl, (Host.Outcome.next.inj h).symm⟩))))
  | evTmoTxStmin => exact .inr (.inr (.inr (.inr (.inr (.inl ⟨rfl, (Host.Outcome.next.inj h).symm⟩)))))
  | evTmoRxCf => exact .inr (.inr (.inr (.inr (.inr (.inr (.inl ⟨rfl, (Host.Outcome.next.inj h).symm⟩))))))
  | evTmoRxGuard => exact .inr (.inr (.inr (.inr (.inr (.inr (.inr ⟨rfl, (Host.Outcome.next.inj h).symm⟩))))))
  | evRsv0 => cases h
  | evRsv8 x => cases h

/-- If a step answers a next state: the block waited, or was reset, or ran the instruction its oldest input decodes
to. -/
theorem step_next_cases {s t : State} (h : step s = .next t) :
    (s.inputs = [] ∧ t = s) ∨
    (∃ xs, s.inputs = .reset :: xs ∧ t = assertReset { s with inputs := xs }) ∨
    (∃ w xs i, s.inputs = .word w :: xs ∧ decode w = .instr i ∧ exec i { s with inputs := xs } = .next t) := by
  unfold step at h
  split at h
  · split at h
    · next hi => exact .inl ⟨hi, (Host.Outcome.next.inj h).symm⟩
    · next x xs hi =>
      cases x with
      | reset => exact .inr (.inl ⟨xs, hi, (Host.Outcome.next.inj h).symm⟩)
      | word w =>
        simp only [stepOn] at h
        split at h
        · next i hd => exact .inr (.inr ⟨w, xs, i, hi, hd, h⟩)
        · cases h
  · cases h

/-! ## Timers -/

/-- An expiry runs its rule with the timer disarmed, or does nothing (R188). -/
theorem expire_cases (t : Timer) (rule : State → State) (s : State) :
    (s.armed t = true ∧ expire t rule s = rule (disarm t s)) ∨ (s.armed t = false ∧ expire t rule s = s) := by
  cases h : s.armed t
  · exact .inr ⟨rfl, by simp [expire, h]⟩
  · exact .inl ⟨rfl, by simp [expire, h]⟩

/-! ## The Sender -/

/-- The frame EmitCF sends: the next up to 7 bytes under TX.SN (R132). -/
theorem emitCf_frame (s : State) :
    encodePdu (.cf s.tx.sn.toNat (slice 0 (min Config.cfData s.tx.remaining.length) s.tx.remaining)) =
      frameCf s.tx.sn.toNat (s.tx.remaining.take 7) := by
  simp only [encodePdu, slice_zero, Config.cfData]
  rw [← List.take_take, List.take_of_length_le (Nat.le_refl _)]

/-- EmitCF, one case per outcome (R132): the channel failed, the payload is exhausted, the block is full, or the pause
follows. -/
theorem emitCf_cases (s : State) :
    (s.answer = .err ∧
      emitCf s = abortTx .channelError (channelSend s.cfg.txId (frameCf s.tx.sn.toNat (s.tx.remaining.take 7)) s)) ∨
    (s.answer = .ok ∧ s.tx.remaining.length ≤ 7 ∧
      emitCf s = indicate (.txConfirm .success) (setTxState .idle
        (cfSent 7 (channelSend s.cfg.txId (frameCf s.tx.sn.toNat (s.tx.remaining.take 7)) s)))) ∨
    (s.answer = .ok ∧ 7 < s.tx.remaining.length ∧ (s.tx.bs ≠ 0 ∧ s.tx.fsib + 1 = s.tx.bs.zeroExtend 10) ∧
      emitCf s = arm .txFc (setTxState .awaitFc
        (cfSent 7 (channelSend s.cfg.txId (frameCf s.tx.sn.toNat (s.tx.remaining.take 7)) s)))) ∨
    (s.answer = .ok ∧ 7 < s.tx.remaining.length ∧ ¬ (s.tx.bs ≠ 0 ∧ s.tx.fsib + 1 = s.tx.bs.zeroExtend 10) ∧
      emitCf s = arm .txStmin (setTxState .sendingBlock
        (cfSent 7 (channelSend s.cfg.txId (frameCf s.tx.sn.toNat (s.tx.remaining.take 7)) s)))) := by
  have hdrop : s.tx.remaining.drop (min Config.cfData s.tx.remaining.length) = s.tx.remaining.drop 7 := by
    simp only [Config.cfData]
    by_cases h : s.tx.remaining.length ≤ 7
    · rw [Nat.min_eq_right h, List.drop_of_length_le (Nat.le_refl _), List.drop_of_length_le h]
    · rw [Nat.min_eq_left (by omega)]
  have hsent : ∀ u : State, u.tx = s.tx →
      cfSent (min Config.cfData s.tx.remaining.length) u = cfSent 7 u := by
    intro u hu
    simp only [cfSent, hu, hdrop]
  cases ha : s.answer with
  | err => exact .inl ⟨rfl, by simp only [emitCf, emitCf_frame, ha]⟩
  | ok =>
    refine .inr ?_
    have hem : emitCf s =
        afterCf (cfSent 7 (channelSend s.cfg.txId (frameCf s.tx.sn.toNat (s.tx.remaining.take 7)) s)) := by
      simp only [emitCf, emitCf_frame, ha]
      exact congrArg afterCf (hsent _ rfl)
    by_cases hlen : s.tx.remaining.length ≤ 7
    · refine .inl ⟨rfl, hlen, ?_⟩
      rw [hem, afterCf, if_pos]
      simpa using hlen
    · refine .inr ?_
      have hne : ¬ s.tx.remaining.drop 7 = [] := by simpa using hlen
      by_cases hb : s.tx.bs ≠ 0 ∧ s.tx.fsib + 1 = s.tx.bs.zeroExtend 10
      · refine .inl ⟨rfl, by omega, hb, ?_⟩
        rw [hem, afterCf, if_neg (by simpa using hne), if_pos (by simpa using hb)]
      · refine .inr ⟨rfl, by omega, hb, ?_⟩
        rw [hem, afterCf, if_neg (by simpa using hne), if_neg (by simpa using hb)]

/-- TX_START, one case per outcome (R128 to R131). -/
theorem txStart_cases (p : List Byte) (s : State) :
    (s.tx.state ≠ .idle ∧ txStart p s = respond (.rejected .sessionBusy) s) ∨
    (s.tx.state = .idle ∧ 4095 < p.length ∧ txStart p s = respond (.rejected .payloadTooLong) s) ∨
    (s.tx.state = .idle ∧ p.length ≤ 7 ∧ txStart p s =
      indicate (.txConfirm (if s.answer = .ok then .success else .channelError))
        (channelSend s.cfg.txId (frameSf p.length p) (respond .accepted s))) ∨
    (s.tx.state = .idle ∧ 7 < p.length ∧ p.length ≤ 4095 ∧ s.answer = .err ∧ txStart p s =
      indicate (.txConfirm .channelError)
        (channelSend s.cfg.txId (frameFf p.length (p.take 6)) (respond .accepted s))) ∨
    (s.tx.state = .idle ∧ 7 < p.length ∧ p.length ≤ 4095 ∧ s.answer = .ok ∧ txStart p s =
      ffSent p (channelSend s.cfg.txId (frameFf p.length (p.take 6)) (respond .accepted s))) := by
  by_cases hs : s.tx.state = .idle
  · refine .inr ?_
    by_cases hl : 4095 < p.length
    · exact .inl ⟨hs, hl, by simp [txStart, hs, Config.maxLen, hl]⟩
    · refine .inr ?_
      have hmax : ¬ p.length > Config.maxLen := by simp [Config.maxLen]; omega
      by_cases h7 : p.length ≤ 7
      · refine .inl ⟨hs, h7, ?_⟩
        have : txStart p s = startSingle p s := by
          simp only [txStart, hs, ne_eq, not_true_eq_false, if_false, hmax, Config.maxSfLen, h7, if_true]
        rw [this, startSingle]
        cases ha : s.answer <;> simp [encodePdu, ha]
      · refine .inr ?_
        have : txStart p s = startFirst p s := by
          simp only [txStart, hs, ne_eq, not_true_eq_false, if_false, hmax, Config.maxSfLen, h7]
        cases ha : s.answer with
        | err =>
          refine .inl ⟨hs, by omega, by omega, rfl, ?_⟩
          rw [this, startFirst]
          simp [encodePdu, ha, slice_zero, Config.ffData]
        | ok =>
          refine .inr ⟨hs, by omega, by omega, rfl, ?_⟩
          rw [this, startFirst]
          simp [encodePdu, ha, slice_zero, Config.ffData]
  · exact .inl ⟨hs, by simp [txStart, hs]⟩

/-- A Flow Control at the Sender, one case per outcome (R133 to R136). -/
theorem onFlowControl_cases (fs : FlowStatus) (bs st : Byte) (s : State) :
    (s.awaitsFc = false ∧ onFlowControl fs bs st s = s) ∨
    (s.awaitsFc = true ∧ fs = .cts ∧ onFlowControl fs bs st s = acceptCts bs st s) ∨
    (s.awaitsFc = true ∧ fs = .wait ∧ onFlowControl fs bs st s = arm .txFc s) ∨
    (s.awaitsFc = true ∧ fs = .ovflw ∧ onFlowControl fs bs st s = abortTx .receiverOverflow s) := by
  cases h : s.awaitsFc <;> cases fs <;> simp [onFlowControl, h]

/-! ## The Receiver -/

/-- Where a SF goes (R148, R149). -/
theorem onSf_cases (d : List Byte) (s : State) :
    (s.rx.state = .idle ∧ onSf d s = indicate (.rxIndication d) s) ∨
    (s.rx.state = .awaitCf ∧ onSf d s = indicate (.rxIndication d) (dropReception s)) := by
  cases h : s.rx.state <;> simp [onSf, h]

/-- Where a FF goes (R150, R151). -/
theorem onFf_cases (n : Nat) (d : List Byte) (s : State) :
    (n ≤ s.params.rxBufCap.toNat ∧ onFf n d s = emitFc .cts (ffAccepted n d s)) ∨
    (s.params.rxBufCap.toNat < n ∧ onFf n d s = abortRx .bufferOverrun (emitFc .ovflw s)) := by
  by_cases h : n ≤ s.params.rxBufCap.toNat
  · exact .inl ⟨h, by simp [onFf, h]⟩
  · exact .inr ⟨by omega, by simp [onFf, h]⟩

/-- Where a CF goes (R152 to R154). -/
theorem onCf_cases (sn : Nat) (d : List Byte) (s : State) :
    (s.rx.state = .idle ∧ onCf sn d s = s) ∨
    (s.rx.state = .awaitCf ∧ sn ≠ s.rx.esn.toNat ∧ onCf sn d s = abortRx .sequenceMismatch s) ∨
    (s.rx.state = .awaitCf ∧ sn = s.rx.esn.toNat ∧ onCf sn d s = acceptCf d s) := by
  cases h : s.rx.state with
  | idle => exact .inl ⟨rfl, by simp [onCf, h]⟩
  | awaitCf =>
    by_cases hsn : sn = s.rx.esn.toNat
    · exact .inr (.inr ⟨rfl, hsn, by simp [onCf, h, hsn]⟩)
    · exact .inr (.inl ⟨rfl, hsn, by simp [onCf, h, hsn]⟩)

/-- EmitFC sends one frame with CFG's values (R162). -/
theorem emitFc_eq (fs : FlowStatus) (s : State) :
    emitFc fs s = channelSend s.cfg.txId (frameFc fs s.cfg.bs s.cfg.stmin) s := rfl

/-- RX_GUARD at the end of a reassembly: cleared by default, armed after a full last block when the parameter asks for
it (R155). -/
theorem completeGuard_eq (s : State) :
    completeGuard s = { s with
      rx := { s.rx with
        guardArmed :=
          if s.params.rxFcAfterFinalBlock = false then false
          else if s.cfg.bs ≠ 0 ∧ s.rx.frib = s.cfg.bs.zeroExtend 10 then true else s.rx.guardArmed } } := by
  cases hp : s.params.rxFcAfterFinalBlock
  · rw [completeGuard, if_neg (by simp [hp]), if_pos (by simp [hp])]; rfl
  · by_cases hb : s.cfg.bs ≠ 0 ∧ s.rx.frib = s.cfg.bs.zeroExtend 10
    · rw [completeGuard, if_pos ⟨hp, hb⟩, if_neg (by simp), if_pos hb]; rfl
    · rw [completeGuard, if_neg (fun h => hb h.2), if_neg (by simp [hp]), if_neg (by simp), if_neg hb]

/-- Complete (R155): the payload is delivered and the Receiver is IDLE; only the guard's bit depends on a parameter. -/
theorem complete_eq (s : State) :
    complete s = { s with
      out := s.out ++ [.ind (.rxIndication (s.rx.buf.take s.rx.total.toNat))],
      rx := { s.rx with
        cfArmed := false, buf := [], frib := 0, state := .idle,
        guardArmed :=
          if s.params.rxFcAfterFinalBlock = false then false
          else if s.cfg.bs ≠ 0 ∧ s.rx.frib = s.cfg.bs.zeroExtend 10 then true else s.rx.guardArmed } } := by
  simp only [complete, completeGuard_eq]
  rfl

/-- BlockCheck (R156). -/
theorem blockCheck_cases (s : State) :
    ((s.cfg.bs ≠ 0 ∧ s.rx.frib = s.cfg.bs.zeroExtend 10) ∧
      blockCheck s = { s with rx := { s.rx with frib := 0, guardArmed := true } }) ∨
    (¬ (s.cfg.bs ≠ 0 ∧ s.rx.frib = s.cfg.bs.zeroExtend 10) ∧ blockCheck s = s) := by
  by_cases hb : s.cfg.bs ≠ 0 ∧ s.rx.frib = s.cfg.bs.zeroExtend 10
  · exact .inl ⟨hb, by rw [blockCheck, if_pos hb]; rfl⟩
  · exact .inr ⟨hb, by rw [blockCheck, if_neg hb]⟩

/-- An accepted CF completes the payload or goes on to the block check (R154). -/
theorem acceptCf_cases (d : List Byte) (s : State) :
    ((cfAppended d s).rx.total.toNat ≤ (cfAppended d s).rx.buf.length ∧
      acceptCf d s = complete (cfAppended d s)) ∨
    ((cfAppended d s).rx.buf.length < (cfAppended d s).rx.total.toNat ∧
      acceptCf d s = blockCheck (cfAppended d s)) := by
  by_cases h : (cfAppended d s).rx.total.toNat ≤ (cfAppended d s).rx.buf.length
  · exact .inl ⟨h, by simp only [acceptCf, h, if_true]⟩
  · exact .inr ⟨by omega, by simp only [acceptCf, h, if_false]⟩

/-! ## Dispatch of inbound frames -/

/-- A frame passes the filter and is routed, or is dropped (R167). -/
theorem frameIn_cases (id : Ident) (f : Frame) (s : State) :
    (id = s.cfg.rxId ∧ frameIn id f s = route (codecDecode f) s) ∨ (id ≠ s.cfg.rxId ∧ frameIn id f s = s) := by
  by_cases h : id = s.cfg.rxId
  · exact .inl ⟨h, by rw [frameIn, if_pos h]⟩
  · exact .inr ⟨h, by rw [frameIn, if_neg h]⟩

/-- The data bytes a decoded frame carries: at most 7 for a SF, 6 for a FF within 12 bits of length, 7 for a CF. -/
theorem codecDecode_data (f : Frame) :
    (∀ l d, codecDecode f = .pdu (.sf l d) → d.length ≤ 7) ∧
    (∀ n d, codecDecode f = .pdu (.ff n d) → n < 4096 ∧ d = [f.f2, f.f3, f.f4, f.f5, f.f6, f.f7]) ∧
    (∀ n d, codecDecode f = .pdu (.cf n d) → n < 16 ∧ d = [f.f1, f.f2, f.f3, f.f4, f.f5, f.f6, f.f7]) := by
  refine ⟨fun l d h => ?_, fun n d h => ?_, fun n d h => ?_⟩
  · simp only [codecDecode, decodeSf, decodeFf, decodeCf, decodeFc] at h
    split at h
    · split at h
      · next hl =>
        cases h
        rw [slice_length]
        omega
      · cases h
    · repeat' (split at h)
      all_goals cases h
  · simp only [codecDecode, decodeSf, decodeFf, decodeCf, decodeFc] at h
    repeat' (split at h)
    all_goals first | (cases h; exact ⟨(ffLen f.f0 f.f1).isLt, rfl⟩) | cases h
  · simp only [codecDecode, decodeSf, decodeFf, decodeCf, decodeFc] at h
    repeat' (split at h)
    all_goals first | (cases h; exact ⟨(loNibble f.f0).isLt, rfl⟩) | cases h

end Sys2Proof.Machine
end

