-- ==== Sys2Proof/Laws/PerInstr.lean ====
section
/-! SUPPORT. The statement made once per instruction: its encoding carries the fixed bits of its row of
spec/opcode_table.json. -/

namespace Sys2Proof.Laws.RowPattern

open Sys2Proof Sys2Proof.Machine

/-- The row's match and mask in spec/opcode_table.json. -/
def pattern : Instr → Nat × Nat
  | .encSf _ _ => (0x00, 0xF8)
  | .encFf _ _ => (0x10, 0xF0)
  | .encCf _ _ => (0x20, 0xF0)
  | .encFcCts _ _ => (0x30, 0xFF)
  | .encFcWait _ _ => (0x31, 0xFF)
  | .encFcOvflw _ _ => (0x32, 0xFF)
  | .decSf _ _ => (0x00, 0xF8)
  | .decSfLenErr _ => (0x08, 0xF8)
  | .decFf _ _ => (0x10, 0xF0)
  | .decCf _ _ => (0x20, 0xF0)
  | .decFcCts _ _ => (0x30, 0xFF)
  | .decFcWait _ _ => (0x31, 0xFF)
  | .decFcOvflw _ _ => (0x32, 0xFF)
  | .decFcRsv3 => (0x33, 0xFF)
  | .decFcRsv4 _ => (0x34, 0xFC)
  | .decFcRsv8 _ => (0x38, 0xF8)
  | .decRsvType4 _ => (0x40, 0xC0)
  | .decRsvType8 _ => (0x80, 0x80)
  | .evTxStart _ => (0x1, 0xF)
  | .evTxCancel => (0x2, 0xF)
  | .evFrameIn _ _ => (0x3, 0xF)
  | .evTmoTxFc => (0x4, 0xF)
  | .evTmoTxStmin => (0x5, 0xF)
  | .evTmoRxCf => (0x6, 0xF)
  | .evTmoRxGuard => (0x7, 0xF)
  | .evRsv0 => (0x0, 0xF)
  | .evRsv8 _ => (0x8, 0x8)

/-- The unit the row's pattern applies to (the table's "applies_to"): the OP field of an event word, byte f[0] of a
received frame, byte f[0] of the frame that encode produces. -/
def headBits : PortWord → Nat
  | .event (op :: _) => op.toNat
  | .event [] => 0
  | .frame f => f.f0.toNat
  | .pdu p => (encodePdu p).f0.toNat

/-- A well-formed instruction's encoding carries the fixed bits of its row. -/
def Statement (i : Instr) : Prop := i.wf = true → headBits (encode i) &&& (pattern i).2 = (pattern i).1

theorem encSf (l : Nat) (d : List Byte) : Statement (.encSf l d) := by
  intro h
  have hl : l ≤ 7 := by
    simp only [Instr.wf, Pdu.wf, Bool.and_eq_true, decide_eq_true_eq] at h
    exact h.1
  revert hl
  clear h
  simp only [headBits, encode, pattern, encodePdu, frameSf, Frame.ofBytes_f0]
  intro hl
  interval_cases l <;> rfl

theorem encFf (n : Nat) (d : List Byte) : Statement (.encFf n d) := by
  intro _
  have h : ∀ x : Nibble, (byteOf 1 x).toNat &&& 0xF0 = 0x10 := by decide
  exact h _

theorem encCf (n : Nat) (d : List Byte) : Statement (.encCf n d) := by
  intro _
  have h : ∀ x : Nibble, (byteOf 2 x).toNat &&& 0xF0 = 0x20 := by decide
  exact h _

theorem encFcCts (bs st : Byte) : Statement (.encFcCts bs st) := by
  intro _
  simp only [headBits, encode, pattern, encodePdu, frameFc, Frame.ofBytes_f0]
  decide

theorem encFcWait (bs st : Byte) : Statement (.encFcWait bs st) := by
  intro _
  simp only [headBits, encode, pattern, encodePdu, frameFc, Frame.ofBytes_f0]
  decide

theorem encFcOvflw (bs st : Byte) : Statement (.encFcOvflw bs st) := by
  intro _
  simp only [headBits, encode, pattern, encodePdu, frameFc, Frame.ofBytes_f0]
  decide

theorem decSf (l : BitVec 3) (d : List Byte) : Statement (.decSf l d) := by
  intro _
  have h : ∀ x : BitVec 3, (0#5 ++ x).toNat &&& 0xF8 = 0x00 := by decide
  exact h l

theorem decSfLenErr (x : BitVec 3) : Statement (.decSfLenErr x) := by
  revert x; unfold Statement; decide

theorem decFf (n : BitVec 12) (d : List Byte) : Statement (.decFf n d) := by
  intro _
  have h : ∀ x : Nibble, (byteOf 1 x).toNat &&& 0xF0 = 0x10 := by decide
  exact h _

theorem decCf (sn : Nibble) (d : List Byte) : Statement (.decCf sn d) := by
  intro _
  have h : ∀ x : Nibble, (byteOf 2 x).toNat &&& 0xF0 = 0x20 := by decide
  exact h _

theorem decFcCts (bs st : Byte) : Statement (.decFcCts bs st) := by
  intro _
  simp only [headBits, encode, pattern, frameWord, Frame.ofBytes_f0]
  decide

theorem decFcWait (bs st : Byte) : Statement (.decFcWait bs st) := by
  intro _
  simp only [headBits, encode, pattern, frameWord, Frame.ofBytes_f0]
  decide

theorem decFcOvflw (bs st : Byte) : Statement (.decFcOvflw bs st) := by
  intro _
  simp only [headBits, encode, pattern, frameWord, Frame.ofBytes_f0]
  decide

theorem decFcRsv3 : Statement .decFcRsv3 := fun _ => rfl

theorem decFcRsv4 (x : BitVec 2) : Statement (.decFcRsv4 x) := by
  revert x; unfold Statement; decide

theorem decFcRsv8 (x : BitVec 3) : Statement (.decFcRsv8 x) := by
  revert x; unfold Statement; decide

theorem decRsvType4 (x : BitVec 6) : Statement (.decRsvType4 x) := by
  intro _
  have h : ∀ x : BitVec 6, (1#2 ++ x).toNat &&& 0xC0 = 0x40 := by decide
  exact h x

theorem decRsvType8 (x : BitVec 7) : Statement (.decRsvType8 x) := by
  intro _
  have h : ∀ x : BitVec 7, (1#1 ++ x).toNat &&& 0x80 = 0x80 := by decide
  exact h x

theorem evTxStart (p : List Byte) : Statement (.evTxStart p) := by
  intro _
  simp only [headBits, encode, pattern, eventWord]
  decide

theorem evTxCancel : Statement .evTxCancel := fun _ => rfl

theorem evFrameIn (id : Ident) (f : Frame) : Statement (.evFrameIn id f) := by
  intro _
  simp only [headBits, encode, pattern, eventWord]
  decide

theorem evTmoTxFc : Statement .evTmoTxFc := fun _ => rfl

theorem evTmoTxStmin : Statement .evTmoTxStmin := fun _ => rfl

theorem evTmoRxCf : Statement .evTmoRxCf := fun _ => rfl

theorem evTmoRxGuard : Statement .evTmoRxGuard := fun _ => rfl

theorem evRsv0 : Statement .evRsv0 := fun _ => rfl

theorem evRsv8 (x : BitVec 3) : Statement (.evRsv8 x) := by
  revert x; unfold Statement; decide

end Sys2Proof.Laws.RowPattern
end

