-- ==== Sys2Proof/Laws/Safety.lean ====
section
/-! SUPPORT. What the outputs of a transfer say about the result of its `sendPayload` (30_encoding R99). -/

namespace Sys2Proof.Safety

open Sys2Proof.Machine

/-- The outputs from the next accepted TX_START on belong to another call. -/
theorem sendConfirmed_abandoned (os later : List Output) :
    sendConfirmed (os ++ .resp .accepted :: later) = sendConfirmed os := by
  induction os using sendConfirmed.induct <;> simp_all [sendConfirmed]

/-- A call's result comes from a TxConfirm that stands before any later accepted TX_START, with its code. -/
theorem sendConfirmed_eq_some {os : List Output} {r : SendResult} (h : sendConfirmed os = some r) :
    ∃ (pre post : List Output) (c : TxCode), os = pre ++ .ind (.txConfirm c) :: post ∧ .resp .accepted ∉ pre ∧
      r = if c = .success then .ok else .err c := by
  induction os using sendConfirmed.induct with
  | case1 => simp [sendConfirmed] at h
  | case2 os => exact ⟨[], os, .success, rfl, by simp, by simpa [sendConfirmed] using h.symm⟩
  | case3 c os hc => exact ⟨[], os, c, rfl, by simp, by simp_all [sendConfirmed]⟩
  | case4 p os ih | case5 c os ih | case6 c os ih | case7 id f a os ih | case8 c os ih =>
    obtain ⟨pre, post, c, rfl, hp, hr⟩ := ih h
    exact ⟨_ :: pre, post, c, rfl, by simpa using hp, hr⟩
  | case9 os => simp [sendConfirmed] at h

end Sys2Proof.Safety
end

