-- ==== Sys2Proof/Laws/Steps.lean ====
section
/-! SUPPORT. Everything an instruction can do, once: `Move s t` has one constructor per outcome of the rules, with the
condition the rule puts on it. Claims about every instruction are proved by cases on it. -/

namespace Sys2Proof.Machine

/-- The outcomes of one instruction on s. -/
inductive Move (s : State) : State → Prop
  /-- No effect: R136, R139, R140, R152, R160, R167. -/
  | stay : Move s s
  /-- A codec request. -/
  | codec (r : CodecResult) : Move s (codecReturn r s)
  /-- TX_START rejected (R128, R129). -/
  | rejected (c : RejectCode) : Move s (respond (.rejected c) s)
  /-- The SF path (R130). -/
  | single (p : List Byte) (hi : s.tx.state = .idle) (hl : p.length ≤ 7) :
      Move s (indicate (.txConfirm (if s.answer = .ok then .success else .channelError))
        (channelSend s.cfg.txId (frameSf p.length p) (respond .accepted s)))
  /-- The FF path, channel failed (R131). -/
  | firstErr (p : List Byte) (hi : s.tx.state = .idle) (h7 : 7 < p.length) (hl : p.length ≤ 4095) :
      Move s (indicate (.txConfirm .channelError)
        (channelSend s.cfg.txId (frameFf p.length (p.take 6)) (respond .accepted s)))
  /-- The FF path (R131). -/
  | firstOk (p : List Byte) (hi : s.tx.state = .idle) (h7 : 7 < p.length) (hl : p.length ≤ 4095) :
      Move s (ffSent p (channelSend s.cfg.txId (frameFf p.length (p.take 6)) (respond .accepted s)))
  /-- TX_CANCEL of a transfer (R140). -/
  | cancel (hs : s.tx.state ≠ .idle) : Move s (abortTx .cancelled s)
  /-- CTS (R133). -/
  | cts (bs st : Byte) (ha : s.awaitsFc = true) : Move s (emitCf (ctsRecorded bs st s))
  /-- WAIT (R134). -/
  | wait (ha : s.awaitsFc = true) : Move s (arm .txFc s)
  /-- OVFLW (R135). -/
  | ovflw (ha : s.awaitsFc = true) : Move s (abortTx .receiverOverflow s)
  /-- TMO_TX_FC (R137). -/
  | fcTimeout (ha : s.awaitsFc = true) (h : s.tx.fcArmed = true) :
      Move s (abortTx .flowControlTimeout (disarm .txFc s))
  /-- TMO_TX_STMIN (R138). -/
  | stmin (hs : s.tx.state = .sendingBlock) (h : s.tx.stminArmed = true) : Move s (emitCf (disarm .txStmin s))
  /-- An expiry whose rule's state condition fails, in states no run reaches (log 10). -/
  | strayTxFc (ha : s.awaitsFc = false) (h : s.tx.fcArmed = true) : Move s (disarm .txFc s)
  | strayTxStmin (hs : s.tx.state ≠ .sendingBlock) (h : s.tx.stminArmed = true) : Move s (disarm .txStmin s)
  | strayRxCf (hs : s.rx.state = .idle) (h : s.rx.cfArmed = true) : Move s (disarm .rxCf s)
  /-- An undecodable frame (R169). -/
  | frameError (e : FrameError) : Move s (indicate (.frameErrorInd e) s)
  /-- SF in IDLE (R148). -/
  | sfIdle (d : List Byte) (hs : s.rx.state = .idle) : Move s (indicate (.rxIndication d) s)
  /-- SF during a reassembly (R149). -/
  | sfAwait (d : List Byte) (hs : s.rx.state = .awaitCf) : Move s (indicate (.rxIndication d) (dropReception s))
  /-- FF accepted (R150). -/
  | ffAccept (n : Nat) (d : List Byte) (hn : n ≤ s.params.rxBufCap.toNat) (hd : d.length = 6) :
      Move s (emitFc .cts (ffAccepted n d s))
  /-- FF above the capacity (R151). -/
  | ffOver : Move s (abortRx .bufferOverrun (emitFc .ovflw s))
  /-- CF with the wrong number (R153). -/
  | cfMismatch (hs : s.rx.state = .awaitCf) : Move s (abortRx .sequenceMismatch s)
  /-- CF that completes (R154, R155). -/
  | cfComplete (d : List Byte) (hd : d.length = 7) (hs : s.rx.state = .awaitCf)
      (hc : s.rx.total.toNat ≤ s.rx.buf.length + 7) : Move s (complete (cfAppended d s))
  /-- CF that ends a block (R154, R156). -/
  | cfBlock (d : List Byte) (hd : d.length = 7) (hs : s.rx.state = .awaitCf)
      (hc : s.rx.buf.length + 7 < s.rx.total.toNat)
      (hb : s.cfg.bs ≠ 0 ∧ s.rx.frib + 1 = s.cfg.bs.zeroExtend 10) :
      Move s { cfAppended d s with rx := { (cfAppended d s).rx with frib := 0, guardArmed := true } }
  /-- CF within a block (R154). -/
  | cfNext (d : List Byte) (hd : d.length = 7) (hs : s.rx.state = .awaitCf)
      (hc : s.rx.buf.length + 7 < s.rx.total.toNat)
      (hb : ¬ (s.cfg.bs ≠ 0 ∧ s.rx.frib + 1 = s.cfg.bs.zeroExtend 10)) : Move s (cfAppended d s)
  /-- TMO_RX_CF (R158). -/
  | cfTimeout (hs : s.rx.state = .awaitCf) (h : s.rx.cfArmed = true) :
      Move s (abortRx .consecutiveFrameTimeout (disarm .rxCf s))
  /-- TMO_RX_GUARD (R159). -/
  | guard (h : s.rx.guardArmed = true) : Move s (emitFc .cts (disarm .rxGuard s))

/-- The length of RX.BUF after the append of a CF's 7 bytes (R154). -/
theorem cfAppended_length {d : List Byte} (hd : d.length = 7) (s : State) :
    (cfAppended d s).rx.buf.length = s.rx.buf.length + cfTake s := by
  have hk : cfTake s ≤ 7 := Nat.min_le_left _ _
  simp only [cfAppended_rx, List.length_append, slice_length, hd]
  omega

/-- A CF with the expected number is one of three moves. -/
theorem acceptCf_move {d : List Byte} (hd : d.length = 7) {s : State} (hs : s.rx.state = .awaitCf) :
    Move s (acceptCf d s) := by
  have hlen := cfAppended_length hd s
  have hk : cfTake s = min 7 (s.rx.total.toNat - min s.rx.total.toNat s.rx.buf.length) := rfl
  have ht : (cfAppended d s).rx.total = s.rx.total := rfl
  rcases acceptCf_cases d s with ⟨hc, h⟩ | ⟨hc, h⟩ <;> rw [h] <;> rw [hlen, ht] at hc
  · exact .cfComplete d hd hs (by omega)
  · rcases blockCheck_cases (cfAppended d s) with ⟨hb, h⟩ | ⟨hb, h⟩ <;> rw [h] <;>
      simp only [cfAppended_cfg, cfAppended_rx] at hb
    · exact .cfBlock d hd hs (by omega) hb
    · exact .cfNext d hd hs (by omega) hb

/-- An inbound frame is one of the moves. -/
theorem frameIn_move (id : Ident) (f : Frame) (s : State) : Move s (frameIn id f s) := by
  obtain ⟨_, hff, hcf⟩ := codecDecode_data f
  rcases frameIn_cases id f s with ⟨_, h⟩ | ⟨_, h⟩ <;> rw [h]
  · cases hdec : codecDecode f with
    | error e => exact .frameError e
    | pdu p =>
      cases p with
      | sf l d =>
        rcases onSf_cases d s with ⟨hs, h⟩ | ⟨hs, h⟩ <;> rw [route, h]
        · exact .sfIdle d hs
        · exact .sfAwait d hs
      | ff n d =>
        obtain ⟨_, rfl⟩ := hff n d hdec
        rcases onFf_cases n [f.f2, f.f3, f.f4, f.f5, f.f6, f.f7] s with ⟨hn, h⟩ | ⟨_, h⟩ <;> rw [route, h]
        · exact .ffAccept n _ hn rfl
        · exact .ffOver
      | cf n d =>
        obtain ⟨_, rfl⟩ := hcf n d hdec
        rcases onCf_cases n [f.f1, f.f2, f.f3, f.f4, f.f5, f.f6, f.f7] s with ⟨_, h⟩ | ⟨hs, _, h⟩ | ⟨hs, _, h⟩ <;>
          rw [route, h]
        · exact .stay
        · exact .cfMismatch hs
        · exact acceptCf_move rfl hs
      | fc fs bs st =>
        rcases onFlowControl_cases fs bs st s with ⟨_, h⟩ | ⟨ha, _, h⟩ | ⟨ha, _, h⟩ | ⟨ha, _, h⟩ <;> rw [route, h]
        · exact .stay
        · exact .cts bs st ha
        · exact .wait ha
        · exact .ovflw ha
  · exact .stay

/-- If an instruction answers a next state, that state is one of the moves. -/
theorem exec_move {i : Instr} {s t : State} (h : exec i s = .next t) : Move s t := by
  rcases exec_next_cases h with ⟨r, rfl⟩ | ⟨p, _, rfl⟩ | ⟨_, rfl⟩ | ⟨id, f, _, rfl⟩ | ⟨_, rfl⟩ | ⟨_, rfl⟩ | ⟨_, rfl⟩ | ⟨_, rfl⟩
  · exact .codec r
  · rcases txStart_cases p s with ⟨_, h⟩ | ⟨_, _, h⟩ | ⟨hi, hl, h⟩ | ⟨hi, h7, hl, _, h⟩ | ⟨hi, h7, hl, _, h⟩ <;> rw [h]
    · exact .rejected .sessionBusy
    · exact .rejected .payloadTooLong
    · exact .single p hi hl
    · exact .firstErr p hi h7 hl
    · exact .firstOk p hi h7 hl
  · by_cases hs : s.tx.state = .idle
    · rw [txCancel, if_pos hs]; exact .stay
    · rw [txCancel, if_neg hs]; exact .cancel hs
  · exact frameIn_move id f s
  · rcases expire_cases .txFc (fun u => if u.awaitsFc then abortTx .flowControlTimeout u else u) s
      with ⟨ha, h⟩ | ⟨_, h⟩ <;> rw [tmoTxFc, h]
    · rw [disarm_awaitsFc]
      cases hw : s.awaitsFc
      · exact .strayTxFc hw ha
      · exact .fcTimeout hw ha
    · exact .stay
  · rcases expire_cases .txStmin (fun u => if u.tx.state = .sendingBlock then emitCf u else u) s
      with ⟨ha, h⟩ | ⟨_, h⟩ <;> rw [tmoTxStmin, h]
    · by_cases hs : s.tx.state = .sendingBlock
      · rw [if_pos (by simpa using hs)]; exact .stmin hs ha
      · rw [if_neg (by simpa using hs)]; exact .strayTxStmin hs ha
    · exact .stay
  · rcases expire_cases .rxCf (fun u => if u.rx.state = .awaitCf then abortRx .consecutiveFrameTimeout u else u) s
      with ⟨ha, h⟩ | ⟨_, h⟩ <;> rw [tmoRxCf, h]
    · cases hs : s.rx.state
      · rw [if_neg (by simp [hs])]; exact .strayRxCf hs ha
      · rw [if_pos (by simpa using hs)]; exact .cfTimeout hs ha
    · exact .stay
  · rcases expire_cases .rxGuard (emitFc .cts) s with ⟨ha, h⟩ | ⟨_, h⟩ <;> rw [tmoRxGuard, h]
    · exact .guard ha
    · exact .stay

/-- If a step answers a next state: the block waited, or was reset, or made a move on the state without its oldest
input. -/
theorem step_move {s t : State} (h : step s = .next t) :
    (s.inputs = [] ∧ t = s) ∨
    (∃ xs, s.inputs = .reset :: xs ∧ t = assertReset { s with inputs := xs }) ∨
    (∃ w xs, s.inputs = .word w :: xs ∧ Move { s with inputs := xs } t) := by
  rcases step_next_cases h with ⟨hi, rfl⟩ | ⟨xs, hi, rfl⟩ | ⟨w, xs, i, hi, _, he⟩
  · exact .inl ⟨hi, rfl⟩
  · exact .inr (.inl ⟨xs, hi, rfl⟩)
  · exact .inr (.inr ⟨w, xs, hi, exec_move he⟩)

end Sys2Proof.Machine
end

