-- ==== Sys2Proof/Tests/Slice0.lean ====
section
/-! SUPPORT. Tests of one instruction on a small state each: the well-formedness checks, a word of the spec for every
constructor, results of 95_test_vectors, and a witness for the hypotheses of each statement. -/

namespace Sys2Proof.Tests

open Sys2Proof Sys2Proof.Machine Sys2Proof.Safety

/-! ## States the tests start from -/

/-- Node A of 95_test_vectors after reset, the channel's next two answers being ok. -/
def nodeA : State := { State.reset with channel := [.ok, .ok] }

/-- Node B of 95_test_vectors after reset, with the given CFG.BS and CFG.STMIN. -/
def nodeB (bs stmin : Byte) : State :=
  { nodeA with cfg := { txId := 0x7E8, rxId := 0x7E0, bs := bs, stmin := stmin } }

/-- A Sender of node A that awaits Flow Control. -/
def awaiting (st : TxState) (rem : List Byte) (sn : BitVec 4) : State :=
  { nodeA with tx := { state := st, remaining := rem, sn := sn, fsib := 0, bs := 0, stmin := 0, fcArmed := true,
                       stminArmed := false } }

/-- A Sender of node A in the STmin pause of a block. -/
def pausing (rem : List Byte) (sn : BitVec 4) (bs : Byte) (fsib : BitVec 10) : State :=
  { nodeA with tx := { state := .sendingBlock, remaining := rem, sn := sn, fsib := fsib, bs := bs, stmin := 0,
                       fcArmed := false, stminArmed := true } }

/-- A Receiver of node B (CFG.BS = 2, CFG.STMIN = 5) in a reassembly. -/
def receiving (buf : List Byte) (total : BitVec 12) (esn : BitVec 4) (frib : BitVec 10) : State :=
  { nodeB 2 5 with rx := { state := .awaitCf, esn := esn, buf := buf, total := total, frib := frib, cfArmed := true,
                           guardArmed := false } }

/-- The channel's next answer is err. -/
def failing (s : State) : State := { s with channel := [.err] }

/-- The next state, if there is one. -/
def next? (o : Host.Outcome State Fault Refusal) : Option State :=
  match o with
  | .next t => some t
  | .fault _ => none
  | .refused _ => none

/-- What an instruction puts out. -/
def outs (i : Instr) (s : State) : Option (List Output) := (next? (exec i s)).map (newOut s)

/-- The Sender after an instruction. -/
def txAfter (i : Instr) (s : State) : Option Tx := (next? (exec i s)).map (·.tx)

/-- The Receiver after an instruction. -/
def rxAfter (i : Instr) (s : State) : Option Rx := (next? (exec i s)).map (·.rx)

/-- The codec's answer. -/
def answer (i : Instr) (s : State) : Option (List CodecResult) := (next? (exec i s)).map (·.codec)

/-! ## Well-formedness: a term that each check refuses (R105, R91, R115, R117, R118) -/

theorem test_wf_encSf_length : Instr.wf (.encSf 3 [1, 2]) = false := by decide
theorem test_wf_encSf_above_7 : Instr.wf (.encSf 8 [1, 2, 3, 4, 5, 6, 7, 8]) = false := by decide
theorem test_wf_encFf_above_4095 : Instr.wf (.encFf 4096 [1, 2, 3, 4, 5, 6]) = false := by decide
theorem test_wf_encFf_data : Instr.wf (.encFf 8 [1, 2, 3, 4, 5, 6, 7]) = false := by decide
theorem test_wf_encCf_data : Instr.wf (.encCf 1 [1, 2, 3, 4, 5, 6, 7, 8]) = false := by decide
theorem test_wf_decSf_data : Instr.wf (.decSf 3 [1, 2]) = false := by decide
theorem test_wf_decFf_data : Instr.wf (.decFf 8 [1, 2, 3, 4, 5]) = false := by decide
theorem test_wf_decCf_data : Instr.wf (.decCf 1 [1, 2, 3, 4, 5, 6]) = false := by decide
theorem test_wf_txStart_length : Instr.wf (.evTxStart (List.replicate 65536 0)) = false := by
  simp only [Instr.wf, List.length_replicate]
  decide

/-! ## Decoding: a word of the spec for every constructor (95_test_vectors 2.1, 2.2, Part 3; 30_encoding R90, R92) -/

/-- V-SRC-1. -/
theorem test_decode_encSf : decode (.pdu (.sf 3 [1, 2, 3])) = .instr (.encSf 3 [1, 2, 3]) := by decide
/-- E4. -/
theorem test_decode_encFf : decode (.pdu (.ff 8 [0, 1, 2, 3, 4, 5])) = .instr (.encFf 8 [0, 1, 2, 3, 4, 5]) := by decide
/-- E12. -/
theorem test_decode_encCf : decode (.pdu (.cf 4 [0x1B, 0x1C])) = .instr (.encCf 4 [0x1B, 0x1C]) := by decide
/-- E14. -/
theorem test_decode_encFcCts : decode (.pdu (.fc .cts 255 0x7F)) = .instr (.encFcCts 255 0x7F) := by decide
/-- E15. -/
theorem test_decode_encFcWait : decode (.pdu (.fc .wait 0 0)) = .instr (.encFcWait 0 0) := by decide
/-- E16. -/
theorem test_decode_encFcOvflw : decode (.pdu (.fc .ovflw 3 0x14)) = .instr (.encFcOvflw 3 0x14) := by decide
/-- D-4. -/
theorem test_decode_decSf : decode (.frame ⟨0x03, 0x0A, 0x0B, 0x0C, 0xFF, 0xFF, 0xFF, 0xFF⟩) =
    .instr (.decSf 3 [0x0A, 0x0B, 0x0C]) := by decide
/-- D-6. -/
theorem test_decode_decSfLenErr : decode (.frame ⟨0x0F, 0, 0, 0, 0, 0, 0, 0⟩) = .instr (.decSfLenErr 7) := by decide
/-- V-SRC-9. -/
theorem test_decode_decFf : decode (.frame ⟨0x11, 0x23, 0xA0, 0xA1, 0xA2, 0xA3, 0xA4, 0xA5⟩) =
    .instr (.decFf 291 [0xA0, 0xA1, 0xA2, 0xA3, 0xA4, 0xA5]) := by decide
/-- V-SRC-9. -/
theorem test_decode_decCf : decode (.frame ⟨0x2F, 1, 2, 3, 4, 5, 6, 7⟩) = .instr (.decCf 15 [1, 2, 3, 4, 5, 6, 7]) := by
  decide
/-- V-SRC-9. -/
theorem test_decode_decFcCts : decode (.frame ⟨0x30, 0x08, 0x7F, 0, 0, 0, 0, 0⟩) = .instr (.decFcCts 8 0x7F) := by decide
/-- D-14. -/
theorem test_decode_decFcWait : decode (.frame ⟨0x31, 5, 5, 0, 0, 0, 0, 0⟩) = .instr (.decFcWait 5 5) := by decide
/-- D-15. -/
theorem test_decode_decFcOvflw : decode (.frame ⟨0x32, 0, 0, 0, 0, 0, 0, 0⟩) = .instr (.decFcOvflw 0 0) := by decide
/-- D-18. -/
theorem test_decode_decFcRsv3 : decode (.frame ⟨0x33, 0, 0, 0, 0, 0, 0, 0⟩) = .instr .decFcRsv3 := by decide
/-- R90's rows 0x34..0x37 and 0x38..0x3F. -/
theorem test_decode_decFcRsv4 : decode (.frame ⟨0x36, 0, 0, 0, 0, 0, 0, 0⟩) = .instr (.decFcRsv4 2) := by decide
/-- D-19. -/
theorem test_decode_decFcRsv8 : decode (.frame ⟨0x3F, 0, 0, 0, 0, 0, 0, 0⟩) = .instr (.decFcRsv8 7) := by decide
/-- D-22. -/
theorem test_decode_decRsvType4 : decode (.frame ⟨0x45, 0, 0, 0, 0, 0, 0, 0⟩) = .instr (.decRsvType4 5) := by decide
/-- D-21. -/
theorem test_decode_decRsvType8 : decode (.frame ⟨0xFF, 255, 255, 255, 255, 255, 255, 255⟩) =
    .instr (.decRsvType8 127) := by decide
/-- PROG-3 step 3, `1 0001 01`. -/
theorem test_decode_txStart : decode (.event [1, 0, 0, 0, 1, 0, 1]) = .instr (.evTxStart [0x01]) := by decide
/-- PROG-6 step 8, `2`. -/
theorem test_decode_txCancel : decode (.event [2]) = .instr .evTxCancel := by decide
/-- PROG-1 step 2, `3 000007E8 3003140000000000`. -/
theorem test_decode_frameIn :
    decode (.event [3, 0, 0, 0, 0, 0, 7, 14, 8, 3, 0, 0, 3, 1, 4, 0, 0, 0, 0, 0, 0, 0, 0, 0, 0]) =
      .instr (.evFrameIn 0x7E8 ⟨0x30, 0x03, 0x14, 0, 0, 0, 0, 0⟩) := by decide
/-- PROG-6 step 2, `4`. -/
theorem test_decode_tmoTxFc : decode (.event [4]) = .instr .evTmoTxFc := by decide
/-- PROG-1 step 3, `5`. -/
theorem test_decode_tmoTxStmin : decode (.event [5]) = .instr .evTmoTxStmin := by decide
/-- PROG-7 step 8, `6`. -/
theorem test_decode_tmoRxCf : decode (.event [6]) = .instr .evTmoRxCf := by decide
/-- PROG-7 step 4, `7`. -/
theorem test_decode_tmoRxGuard : decode (.event [7]) = .instr .evTmoRxGuard := by decide
/-- X8. -/
theorem test_decode_rsv0 : decode (.event [0]) = .instr .evRsv0 := by decide
/-- X8. -/
theorem test_decode_rsv8 : decode (.event [8]) = .instr (.evRsv8 0) := by decide

/-- An encoder's word: PROG-3 step 3. -/
theorem test_encode_txStart : encode (.evTxStart [0x01]) = .event [1, 0, 0, 0, 1, 0, 1] := by decide
/-- An encoder's word: D-7. -/
theorem test_encode_decFf : encode (.decFf 27 [0, 1, 2, 3, 4, 5]) = .frame ⟨0x10, 0x1B, 0, 1, 2, 3, 4, 5⟩ := by decide

/-! ## Results: codec (95_test_vectors 2.1, 2.2) -/

/-- E3. -/
theorem test_encSf : answer (.encSf 2 [0xFF, 0xFF]) nodeA = some [.encoded ⟨0x02, 0xFF, 0xFF, 0, 0, 0, 0, 0⟩] := by
  decide
/-- E8. -/
theorem test_encFf_empty : answer (.encFf 0 []) nodeA = some [.encoded ⟨0x10, 0, 0, 0, 0, 0, 0, 0⟩] := by decide
/-- E5. -/
theorem test_encFf_largest : answer (.encFf 4095 [0xAA, 0xAA, 0xAA, 0xAA, 0xAA, 0xAA]) nodeA =
    some [.encoded ⟨0x1F, 0xFF, 0xAA, 0xAA, 0xAA, 0xAA, 0xAA, 0xAA⟩] := by decide
/-- E11. -/
theorem test_encCf_wraps : answer (.encCf 16 [0x01]) nodeA = some [.encoded ⟨0x20, 0x01, 0, 0, 0, 0, 0, 0⟩] := by decide
/-- E14. -/
theorem test_encFcCts : answer (.encFcCts 255 0x7F) nodeA = some [.encoded ⟨0x30, 0xFF, 0x7F, 0, 0, 0, 0, 0⟩] := by
  decide
/-- E15. -/
theorem test_encFcWait : answer (.encFcWait 0 0) nodeA = some [.encoded ⟨0x31, 0, 0, 0, 0, 0, 0, 0⟩] := by decide
/-- E16. -/
theorem test_encFcOvflw : answer (.encFcOvflw 3 0x14) nodeA = some [.encoded ⟨0x32, 0x03, 0x14, 0, 0, 0, 0, 0⟩] := by
  decide
/-- D-2. -/
theorem test_decSf_empty : codecDecode ⟨0x00, 255, 255, 255, 255, 255, 255, 255⟩ = .pdu (.sf 0 []) := by decide
/-- D-5. -/
theorem test_decSf_lenErr : codecDecode ⟨0x08, 1, 2, 3, 4, 5, 6, 7⟩ = .error .lengthOutOfRange := by decide
/-- D-9. -/
theorem test_decFf_short : codecDecode ⟨0x10, 0x05, 1, 2, 3, 4, 5, 6⟩ = .pdu (.ff 5 [1, 2, 3, 4, 5, 6]) := by decide
/-- D-12. -/
theorem test_decCf : codecDecode ⟨0x2F, 0xAA, 0, 0, 0, 0, 0, 0⟩ = .pdu (.cf 15 [0xAA, 0, 0, 0, 0, 0, 0]) := by decide
/-- D-13. -/
theorem test_decFc_filler : codecDecode ⟨0x30, 0x03, 0x14, 0x99, 0x99, 0x99, 0x99, 0x99⟩ = .pdu (.fc .cts 3 0x14) := by
  decide
/-- D-18. -/
theorem test_decFc_reserved : codecDecode ⟨0x33, 0, 0, 0, 0, 0, 0, 0⟩ = .error .malformedHeader := by decide
/-- D-20. -/
theorem test_decType_reserved : codecDecode ⟨0x40, 0, 0, 0, 0, 0, 0, 0⟩ = .error .malformedHeader := by decide
/-- R124's table: 20 ms, 500 µs, reserved. -/
theorem test_stminDuration : stminDuration 0x14 = 20000 ∧ stminDuration 0xF5 = 500 ∧ stminDuration 0xAB = 127000 := by
  decide
/-- The codes of R94 and R95. -/
theorem test_codes : txCode .cancelled = 0x14 ∧ rxCode .bufferOverrun = 0x22 ∧ frameErrorCode .lengthOutOfRange = 0x02 ∧
    responseCode (.rejected .payloadTooLong) = 0x15 := by decide
/-- The state codes of R32 and R40. -/
theorem test_state_codes : txStateCode .awaitFc = 3 ∧ txStateCode .sendingBlock = 2 ∧ rxStateCode .awaitCf = 1 := by
  decide

/-! ## Results: Sender (95_test_vectors 2.4) -/

/-- S2. -/
theorem test_txStart_err : outs (.evTxStart [1, 2, 3]) (failing nodeA) =
    some [.resp .accepted, .frame 0x7E0 ⟨0x03, 1, 2, 3, 0, 0, 0, 0⟩ .err, .ind (.txConfirm .channelError)] := by decide
/-- V-SRC-7: 8 bytes take a FF. -/
theorem test_txStart_8 : outs (.evTxStart [0, 1, 2, 3, 4, 5, 6, 7]) nodeA =
    some [.resp .accepted, .frame 0x7E0 ⟨0x10, 0x08, 0, 1, 2, 3, 4, 5⟩ .ok] ∧
    txAfter (.evTxStart [0, 1, 2, 3, 4, 5, 6, 7]) nodeA = some (awaiting .awaitFirstFc [6, 7] 1).tx := by decide
/-- S19. -/
theorem test_txCancel : outs .evTxCancel (awaiting .awaitFc [1] 2) = some [.ind (.txConfirm .cancelled)] := by decide
/-- S8: bs = 1, 14 bytes left. -/
theorem test_cts_block_of_one :
    outs (.evFrameIn 0x7E8 ⟨0x30, 1, 0, 0, 0, 0, 0, 0⟩)
        (awaiting .awaitFirstFc [6, 7, 8, 9, 10, 11, 12, 13, 14, 15, 16, 17, 18, 19] 1) =
      some [.frame 0x7E0 ⟨0x21, 6, 7, 8, 9, 10, 11, 12⟩ .ok] ∧
    txAfter (.evFrameIn 0x7E8 ⟨0x30, 1, 0, 0, 0, 0, 0, 0⟩)
        (awaiting .awaitFirstFc [6, 7, 8, 9, 10, 11, 12, 13, 14, 15, 16, 17, 18, 19] 1) =
      some { state := .awaitFc, remaining := [13, 14, 15, 16, 17, 18, 19], sn := 2, fsib := 1, bs := 1, stmin := 0,
             fcArmed := true, stminArmed := false } := by decide
/-- S10: bs larger than the CFs left. -/
theorem test_cts_completes :
    outs (.evFrameIn 0x7E8 ⟨0x30, 5, 0, 0, 0, 0, 0, 0⟩) (awaiting .awaitFirstFc [6, 7] 1) =
      some [.frame 0x7E0 ⟨0x21, 6, 7, 0, 0, 0, 0, 0⟩ .ok, .ind (.txConfirm .success)] := by decide
/-- S17: SN 15 wraps to 0. -/
theorem test_stmin_wraps :
    outs .evTmoTxStmin (pausing [1, 2, 3, 4, 5, 6, 7, 8, 9, 10] 15 0 14) =
      some [.frame 0x7E0 ⟨0x2F, 1, 2, 3, 4, 5, 6, 7⟩ .ok] ∧
    (txAfter .evTmoTxStmin (pausing [1, 2, 3, 4, 5, 6, 7, 8, 9, 10] 15 0 14)).map (·.sn) = some 0 := by decide
/-- S18. -/
theorem test_stmin_err :
    outs .evTmoTxStmin (failing (pausing [1, 2, 3, 4] 5 3 1)) =
      some [.frame 0x7E0 ⟨0x25, 1, 2, 3, 4, 0, 0, 0⟩ .err, .ind (.txConfirm .channelError)] ∧
    (txAfter .evTmoTxStmin (failing (pausing [1, 2, 3, 4] 5 3 1))).map (·.state) = some .idle := by decide
/-- S16. -/
theorem test_tmoTxFc : outs .evTmoTxFc (awaiting .awaitFc [1] 2) = some [.ind (.txConfirm .flowControlTimeout)] := by
  decide
/-- S14: an early FC is dropped. -/
theorem test_early_fc : next? (exec (.evFrameIn 0x7E8 ⟨0x30, 3, 0x14, 0, 0, 0, 0, 0⟩) (pausing [1] 2 3 1)) =
    some (pausing [1] 2 3 1) := by decide

/-! ## Results: Receiver and dispatch (95_test_vectors 2.5, 2.6) -/

/-- RX7: the declared length cuts the data (D38). -/
theorem test_rx_truncates : outs (.evFrameIn 0x7E0 ⟨0x21, 0, 0, 0, 0, 0, 0, 0⟩) (receiving [1, 2, 3, 4, 5, 6] 3 1 0) =
    some [.ind (.rxIndication [1, 2, 3])] := by decide
/-- RX12: the block boundary. -/
theorem test_rx_block :
    rxAfter (.evFrameIn 0x7E0 ⟨0x22, 13, 14, 15, 16, 17, 18, 19⟩) (receiving [0, 1, 2, 3, 4, 5, 6, 7, 8, 9, 10, 11, 12] 27 2 1) =
      some { state := .awaitCf, esn := 3, total := 27, frib := 0, cfArmed := true, guardArmed := true,
             buf := [0, 1, 2, 3, 4, 5, 6, 7, 8, 9, 10, 11, 12, 13, 14, 15, 16, 17, 18, 19] } := by decide
/-- RX18. -/
theorem test_tmoRxCf : outs .evTmoRxCf (receiving [0, 1, 2, 3, 4, 5] 27 1 0) =
    some [.ind (.rxError .consecutiveFrameTimeout)] := by decide
/-- RX13. -/
theorem test_tmoRxGuard :
    outs .evTmoRxGuard (setTimer .rxGuard true (receiving [0, 1, 2, 3, 4, 5] 27 1 0)) =
      some [.frame 0x7E8 ⟨0x30, 2, 5, 0, 0, 0, 0, 0⟩ .ok] := by decide
/-- RX20. -/
theorem test_tmoRxCf_stale : next? (exec .evTmoRxCf (nodeB 2 5)) = some (nodeB 2 5) := by decide
/-- X5 and X1. -/
theorem test_dispatch : outs (.evFrameIn 0x7E0 ⟨0x09, 0, 0, 0, 0, 0, 0, 0⟩) (nodeB 2 5) =
    some [.ind (.frameErrorInd .lengthOutOfRange)] ∧
    outs (.evFrameIn 0x7E1 ⟨0x10, 0x14, 0, 1, 2, 3, 4, 5⟩) (nodeB 2 5) = some [] := by decide
/-- X8. -/
theorem test_reserved : exec .evRsv0 nodeA = .refused .reservedOpCode ∧ exec (.evRsv8 0) nodeA = .refused .reservedOpCode :=
  ⟨rfl, rfl⟩
/-- Z1. -/
theorem test_reset : next? (step { awaiting .awaitFc [1] 2 with inputs := [.reset] }) = some nodeA := by decide
/-- A table word at reset: EV.TMO_RX_GUARD with no timer armed has no effect (R160). -/
theorem test_fetchWord : next? (step (State.reset.withFetchWord 8 7)) = some State.reset := by decide
/-- A table word is decoded as the table numbers it: f[0] = 0x30, bs and st 0. -/
theorem test_tableWord : decodeTableWord 8 0x30 = some (.decFcCts 0 0) ∧ decodeTableWord 8 1 = some (.evTxStart []) := by
  decide

/-- R99 and R197: a call whose transfer a reset abandons gets no result from the transfer accepted after it; one whose
transfer goes on past a rejected TX_START (R128) gets its own. -/
theorem test_sendPayload_reset :
    sendPayloadResult [.resp .accepted, .frame 0x7E0 ⟨0x10, 0x0A, 0, 1, 2, 3, 4, 5⟩ .ok,
      .resp .accepted, .frame 0x7E0 ⟨0x01, 0x7F, 0, 0, 0, 0, 0, 0⟩ .ok, .ind (.txConfirm .success)] = none ∧
    sendPayloadResult [.resp .accepted, .frame 0x7E0 ⟨0x10, 0x0A, 0, 1, 2, 3, 4, 5⟩ .ok,
      .resp (.rejected .sessionBusy), .ind (.txConfirm .cancelled)] = some (.err .cancelled) := by decide
/-- R99: the results of a sendPayload that is rejected, that waits, and that ends (V-SRC-5). -/
theorem test_sendPayload : sendPayloadResult [.resp (.rejected .sessionBusy)] = some (.rejected .sessionBusy) ∧
    sendPayloadResult [.resp .accepted, .frame 0x7E0 ⟨0x10, 0x0A, 0, 1, 2, 3, 4, 5⟩ .ok] = none ∧
    sendPayloadResult [.resp .accepted, .frame 0x7E0 ⟨0x10, 0x0A, 0, 1, 2, 3, 4, 5⟩ .ok,
      .ind (.txConfirm .flowControlTimeout)] = some (.err .flowControlTimeout) := by decide

/-! ## Witnesses: states and operands that meet the hypotheses of each statement -/

/-- A state with inputs at its ports. -/
def withInputs (xs : List Input) (s : State) : State := { s with inputs := xs }

theorem witness_ResetSignalGivesResetValues : ∃ (s : State) (xs : List Input),
    cfgLegal s.cfg = true ∧ s.inputs = .reset :: xs := ⟨withInputs [.reset] nodeA, [], by decide⟩

theorem witness_StepRunsDecodedInstruction : ∃ (s : State) (w : PortWord) (xs : List Input) (i : Instr),
    cfgLegal s.cfg = true ∧ s.inputs = .word w :: xs ∧ decode w = .instr i ∧ i.wf = true :=
  ⟨withInputs [.word (.event [5])] nodeA, .event [5], [], .evTmoTxStmin, by decide⟩

theorem witness_StepWaits : cfgLegal State.reset.cfg = true ∧ State.reset.inputs = [] := by decide

theorem witness_StepRefuses_config :
    0x1FFFFFFF < ({ Config.loadedCfg with txId := 0x20000000 } : Cfg).txId.toNat ∧
    0x1FFFFFFF < ({ Config.loadedCfg with rxId := 0x20000000 } : Cfg).rxId.toNat ∧
    127 < ({ Config.loadedCfg with stmin := 128 } : Cfg).stmin.toNat := by decide

theorem witness_StepRefuses_word : cfgLegal nodeA.cfg = true ∧
    decode (.event [1, 0]) = .reject .truncated ∧ decode (.event [5, 0]) = .reject .trailing := by decide

theorem witness_DecodeOfEncode : Instr.wf (.encFf 4095 [1, 2, 3, 4, 5, 6]) = true ∧ Instr.wf (.evTxStart []) = true ∧
    Instr.wf (.decSf 7 [1, 2, 3, 4, 5, 6, 7]) = true := by decide

theorem witness_EventWordsEncodeBack : decode (.event [1, 0, 0, 0, 1, 0, 1]) = .instr (.evTxStart [0x01]) := by decide

theorem witness_CodecRoundTrip : ∃ (d6 d7 : List Byte) (n15 n : Nat),
    7 ≤ 7 ∧ d7.length = 7 ∧ n = 4095 ∧ n ≤ 4095 ∧ d6.length = 6 ∧ n15 = 15 ∧ n15 ≤ 15 :=
  ⟨[1, 2, 3, 4, 5, 6], [1, 2, 3, 4, 5, 6, 7], 15, 4095, by decide⟩

theorem witness_DecSingleFrame : (⟨0x07, 1, 2, 3, 4, 5, 6, 7⟩ : Frame).f0.toNat ≤ 7 := by decide

theorem witness_DecFirstFrame : ∃ f g : Frame, 0x10 ≤ f.f0.toNat ∧ f.f0.toNat ≤ 0x1F ∧ f.f0 = 0x10 ∧
    0x10 ≤ g.f0.toNat ∧ g.f0.toNat ≤ 0x1F ∧ g.f0 = 0x1F :=
  ⟨⟨0x10, 0, 0, 0, 0, 0, 0, 0⟩, ⟨0x1F, 0xFF, 0, 0, 0, 0, 0, 0⟩, by decide⟩

theorem witness_DecConsecutiveFrame : ∃ f g : Frame, 0x20 ≤ f.f0.toNat ∧ f.f0.toNat ≤ 0x2F ∧ f.f0 = 0x20 ∧
    0x20 ≤ g.f0.toNat ∧ g.f0.toNat ≤ 0x2F ∧ g.f0 = 0x2F :=
  ⟨⟨0x20, 0, 0, 0, 0, 0, 0, 0⟩, ⟨0x2F, 0, 0, 0, 0, 0, 0, 0⟩, by decide⟩

theorem witness_DecFlowControl : ∃ f g h : Frame, f.f0 = 0x30 ∧ g.f0 = 0x31 ∧ h.f0 = 0x32 :=
  ⟨⟨0x30, 0, 0, 0, 0, 0, 0, 0⟩, ⟨0x31, 0, 0, 0, 0, 0, 0, 0⟩, ⟨0x32, 0, 0, 0, 0, 0, 0, 0⟩, by decide⟩

theorem witness_DecReservedLengthOrStatus : ∃ a b c d e : Frame,
    (0x08 ≤ a.f0.toNat ∧ a.f0.toNat ≤ 0x0F) ∧ (0x08 ≤ b.f0.toNat ∧ b.f0.toNat ≤ 0x0F) ∧ c.f0 = 0x33 ∧
    (0x34 ≤ d.f0.toNat ∧ d.f0.toNat ≤ 0x37) ∧ 0x38 ≤ e.f0.toNat ∧ e.f0.toNat ≤ 0x3F :=
  ⟨⟨0x08, 0, 0, 0, 0, 0, 0, 0⟩, ⟨0x0F, 0, 0, 0, 0, 0, 0, 0⟩, ⟨0x33, 0, 0, 0, 0, 0, 0, 0⟩,
    ⟨0x37, 0, 0, 0, 0, 0, 0, 0⟩, ⟨0x38, 0, 0, 0, 0, 0, 0, 0⟩, by decide⟩

theorem witness_DecReservedType : ∃ a b c : Frame, (0x40 ≤ a.f0.toNat ∧ a.f0.toNat ≤ 0x7F) ∧
    (0x40 ≤ b.f0.toNat ∧ b.f0.toNat ≤ 0x7F) ∧ 0x80 ≤ c.f0.toNat :=
  ⟨⟨0x40, 0, 0, 0, 0, 0, 0, 0⟩, ⟨0x7F, 0, 0, 0, 0, 0, 0, 0⟩, ⟨0x80, 0, 0, 0, 0, 0, 0, 0⟩, by decide⟩

theorem witness_EncSingleFrame : ∃ (l m : Nat) (d e : List Byte), (l ≤ 7 ∧ d.length = l) ∧ ¬ (m ≤ 7 ∧ e.length = m) :=
  ⟨7, 8, [1, 2, 3, 4, 5, 6, 7], [1, 2, 3, 4, 5, 6, 7, 8], by decide⟩

theorem witness_EncFirstFrame : ∃ (n : Nat) (d : List Byte), n ≤ 4095 ∧ d.length ≤ 6 :=
  ⟨4095, [1, 2, 3, 4, 5, 6], by decide⟩

theorem witness_EncConsecutiveFrame : ∃ d : List Byte, d.length ≤ 7 := ⟨[1, 2, 3, 4, 5, 6, 7], by decide⟩

theorem witness_EncoderDomain : ∃ (n : Nat) (d e : List Byte),
    (4095 ≤ 4095 ∧ d.length ≤ 6) ∧ ¬ (n ≤ 4095 ∧ d.length ≤ 6) ∧ d.length ≤ 7 ∧ ¬ e.length ≤ 7 :=
  ⟨4096, [1, 2, 3, 4, 5, 6], [1, 2, 3, 4, 5, 6, 7, 8], by decide⟩

theorem witness_TxStartShortPayload : ∃ (p : List Byte) (s : State), s.tx.state = .idle ∧ p.length ≤ 7 :=
  ⟨[1, 2, 3, 4, 5, 6, 7], nodeA, by decide⟩

theorem witness_TxStartLongPayload : ∃ (p : List Byte) (s u : State),
    s.tx.state = .idle ∧ 8 ≤ p.length ∧ p.length ≤ 4095 ∧ s.answer = .ok ∧ u.tx.state = .idle ∧ u.answer = .err :=
  ⟨[1, 2, 3, 4, 5, 6, 7, 8], nodeA, failing nodeA, by decide⟩

theorem witness_TxStartRejected : ∃ (p : List Byte) (s u : State),
    s.tx.state ≠ .idle ∧ u.tx.state = .idle ∧ 4095 < p.length :=
  ⟨List.replicate 4096 0, pausing [1] 1 0 1, nodeA, by decide, by decide,
    by simp only [List.length_replicate]; decide⟩

/-- The states of the four outcomes: an err answer, the payload exhausted, a block of one CF, and the pause. -/
theorem witness_CtsSendsFirstCf : ∃ (f g : Frame) (s u v : State), f.f0 = 0x30 ∧ g.f0 = 0x30 ∧
    (s.awaitsFc = true ∧ s.answer = .err) ∧
    (u.awaitsFc = true ∧ u.answer = .ok ∧ u.tx.remaining.length = 7) ∧
    (v.awaitsFc = true ∧ v.answer = .ok ∧ v.tx.remaining.length = 8 ∧ f.f1 = 1 ∧ g.f1 ≠ 1) :=
  ⟨⟨0x30, 1, 0, 0, 0, 0, 0, 0⟩, ⟨0x30, 2, 0, 0, 0, 0, 0, 0⟩, failing (awaiting .awaitFirstFc [1] 1),
    awaiting .awaitFc [1, 2, 3, 4, 5, 6, 7] 1, awaiting .awaitFc [1, 2, 3, 4, 5, 6, 7, 8] 1, by decide⟩

/-- The states of the four outcomes: an err answer, the payload exhausted, the block full, and the next pause. -/
theorem witness_StminExpirySendsNextCf : ∃ s u v w : State,
    (s.tx.state = .sendingBlock ∧ s.tx.stminArmed = true ∧ s.answer = .err) ∧
    (u.tx.state = .sendingBlock ∧ u.tx.stminArmed = true ∧ u.answer = .ok ∧ u.tx.remaining.length = 7) ∧
    (v.tx.state = .sendingBlock ∧ v.tx.stminArmed = true ∧ v.answer = .ok ∧ v.tx.remaining.length = 8 ∧
      v.tx.bs ≠ 0 ∧ (v.tx.fsib + 1).toNat = v.tx.bs.toNat) ∧
    (w.tx.state = .sendingBlock ∧ w.tx.stminArmed = true ∧ w.answer = .ok ∧ w.tx.remaining.length = 8 ∧
      w.tx.bs ≠ 0 ∧ (w.tx.fsib + 1).toNat ≠ w.tx.bs.toNat) :=
  ⟨failing (pausing [1, 2] 1 2 1), pausing [1, 2, 3, 4, 5, 6, 7] 1 0 1, pausing [1, 2, 3, 4, 5, 6, 7, 8] 1 2 1,
    pausing [1, 2, 3, 4, 5, 6, 7, 8] 1 3 1, by decide⟩

theorem witness_WaitRestartsTimeout : ∃ (f : Frame) (s : State), f.f0 = 0x31 ∧ s.awaitsFc = true :=
  ⟨⟨0x31, 0, 0, 0, 0, 0, 0, 0⟩, awaiting .awaitFc [1] 1, by decide⟩

theorem witness_OverflowAbortsTransfer : ∃ (f : Frame) (s : State),
    f.f0 = 0x32 ∧ (s.tx.state = .awaitFirstFc ∨ s.tx.state = .awaitFc) :=
  ⟨⟨0x32, 0, 0, 0, 0, 0, 0, 0⟩, awaiting .awaitFc [1] 1, by decide⟩

theorem witness_UnawaitedFlowControlDropped : ∃ (f g : Frame) (s u : State),
    (0x30 ≤ f.f0.toNat ∧ f.f0.toNat ≤ 0x32) ∧ (0x30 ≤ g.f0.toNat ∧ g.f0.toNat ≤ 0x32) ∧
    (s.tx.state = .idle ∨ s.tx.state = .sendingBlock) ∧ (u.tx.state = .idle ∨ u.tx.state = .sendingBlock) :=
  ⟨⟨0x30, 0, 0, 0, 0, 0, 0, 0⟩, ⟨0x32, 0, 0, 0, 0, 0, 0, 0⟩, nodeA, pausing [1] 1 0 1, by decide⟩

theorem witness_FlowControlTimeoutAborts : ∃ s : State,
    (s.tx.state = .awaitFirstFc ∨ s.tx.state = .awaitFc) ∧ s.tx.fcArmed = true := ⟨awaiting .awaitFirstFc [1] 1, by decide⟩

theorem witness_CancelAbortsTransfer : ∃ s u : State, s.tx.state ≠ .idle ∧ u.tx.state = .idle :=
  ⟨awaiting .awaitFc [1] 1, nodeA, by decide⟩

theorem witness_StaleExpiriesDoNothing : State.reset.tx.fcArmed = false ∧ State.reset.tx.stminArmed = false ∧
    State.reset.rx.cfArmed = false ∧ State.reset.rx.guardArmed = false := by decide

theorem witness_SingleFrameDelivered : ∃ (f : Frame) (s : State), f.f0.toNat ≤ 7 ∧ s.rx.state = .idle :=
  ⟨⟨0x07, 1, 2, 3, 4, 5, 6, 7⟩, nodeB 2 5, by decide⟩

theorem witness_SingleFrameEndsReassembly : ∃ (f : Frame) (s : State), f.f0.toNat ≤ 7 ∧ s.rx.state = .awaitCf :=
  ⟨⟨0x00, 0, 0, 0, 0, 0, 0, 0⟩, receiving [0, 1, 2, 3, 4, 5] 27 1 0, by decide⟩

theorem witness_FirstFrameStartsReassembly : ∃ (f : Frame) (s : State), 0x10 ≤ f.f0.toNat ∧ f.f0.toNat ≤ 0x1F ∧
    (f.f0.toNat - 0x10) * 256 + f.f1.toNat ≤ s.params.rxBufCap.toNat :=
  ⟨⟨0x1F, 0xFF, 0, 1, 2, 3, 4, 5⟩, nodeB 2 5, by decide⟩

theorem witness_FirstFrameOverCapacity : ∃ (f : Frame) (s : State), 0x10 ≤ f.f0.toNat ∧ f.f0.toNat ≤ 0x1F ∧
    s.params.rxBufCap.toNat < (f.f0.toNat - 0x10) * 256 + f.f1.toNat :=
  ⟨⟨0x10, 0x65, 0, 1, 2, 3, 4, 5⟩, { nodeB 2 5 with params := { rxBufCap := 100, rxFcAfterFinalBlock := false } },
    by decide⟩

theorem witness_OrphanCfIgnored : ∃ (f : Frame) (s : State),
    0x20 ≤ f.f0.toNat ∧ f.f0.toNat ≤ 0x2F ∧ s.rx.state = .idle :=
  ⟨⟨0x2F, 0, 0, 0, 0, 0, 0, 0⟩, nodeB 2 5, by decide⟩

theorem witness_WrongSequenceNumberAborts : ∃ (f : Frame) (s : State),
    0x20 ≤ f.f0.toNat ∧ f.f0.toNat ≤ 0x2F ∧ s.rx.state = .awaitCf ∧ f.f0.toNat - 0x20 ≠ s.rx.esn.toNat :=
  ⟨⟨0x20, 0, 0, 0, 0, 0, 0, 0⟩, receiving [0, 1, 2, 3, 4, 5] 27 1 0, by decide⟩

theorem witness_ConsecutiveFrameAppended : ∃ (f : Frame) (s : State),
    s.rx.state = .awaitCf ∧ f.f0.toNat = 0x20 + s.rx.esn.toNat ∧ s.rx.buf.length + 7 < s.rx.total.toNat ∧
    s.cfg.bs ≠ 0 ∧ (s.rx.frib + 1).toNat = s.cfg.bs.toNat :=
  ⟨⟨0x20, 0, 0, 0, 0, 0, 0, 0⟩, receiving [0, 1, 2, 3, 4, 5] 14 0 1, by decide⟩

theorem witness_ConsecutiveFrameCompletes : ∃ (f : Frame) (s : State),
    s.rx.state = .awaitCf ∧ f.f0.toNat = 0x20 + s.rx.esn.toNat ∧ s.rx.total.toNat ≤ s.rx.buf.length + 7 :=
  ⟨⟨0x21, 0, 0, 0, 0, 0, 0, 0⟩, receiving [0, 1, 2, 3, 4, 5] 13 1 1, by decide⟩

theorem witness_ConsecutiveFrameTimeoutAborts : ∃ s : State, s.rx.state = .awaitCf ∧ s.rx.cfArmed = true :=
  ⟨receiving [0, 1, 2, 3, 4, 5] 13 1 1, by decide⟩

theorem witness_GuardExpirySendsFlowControl : ∃ s : State, s.rx.guardArmed = true :=
  ⟨setTimer .rxGuard true (nodeB 2 5), by decide⟩

theorem witness_FilteredOrUndecodableFrame : ∃ (id : Ident) (f g h : Frame) (s : State), id ≠ s.cfg.rxId ∧
    (0x08 ≤ f.f0.toNat ∧ f.f0.toNat ≤ 0x0F) ∧ (0x08 ≤ g.f0.toNat ∧ g.f0.toNat ≤ 0x0F) ∧ 0x33 ≤ h.f0.toNat :=
  ⟨0x7E1, ⟨0x08, 0, 0, 0, 0, 0, 0, 0⟩, ⟨0x0F, 0, 0, 0, 0, 0, 0, 0⟩, ⟨0x33, 0, 0, 0, 0, 0, 0, 0⟩, nodeB 2 5, by decide⟩

theorem witness_EveryInstructionCompletes : ∃ i j : Instr, i.wf = true ∧ isReserved i = false ∧
    j.wf = true ∧ isReserved j = false :=
  ⟨.encSf 7 [1, 2, 3, 4, 5, 6, 7], .evTxStart [], by decide⟩

theorem witness_StepKeepsConfiguration : ∃ s t : State, step s = .next t := ⟨State.reset, State.reset, rfl⟩

theorem witness_CodecHasNoState : ∃ i : Instr, isCodec i = true ∧ i.wf = true := ⟨.encCf 16 [0x01], by decide⟩

/-- A frame that carries a Flow Control. -/
def fcFrame : Frame := ⟨0x30, 0, 0, 0, 0, 0, 0, 0⟩

theorem witness_SenderIndependentOfReceiver :
    (∃ t, exec .evTxCancel nodeA = .next t) ∧ (∃ t, exec .evTmoTxFc nodeA = .next t) ∧
    (∃ t, exec .evTmoTxStmin nodeA = .next t) ∧ (∃ t, exec (.evTxStart []) nodeA = .next t) ∧
    carriesFc fcFrame = true ∧ ∃ t, exec (.evFrameIn 0x7E8 fcFrame) nodeA = .next t :=
  ⟨⟨_, rfl⟩, ⟨_, rfl⟩, ⟨_, rfl⟩, ⟨_, rfl⟩, by decide, ⟨_, rfl⟩⟩

theorem witness_ReceiverIndependentOfSender :
    (∃ t, exec .evTmoRxCf (nodeB 2 5) = .next t) ∧ (∃ t, exec .evTmoRxGuard (nodeB 2 5) = .next t) ∧
    carriesFc ⟨0x33, 0, 0, 0, 0, 0, 0, 0⟩ = false ∧
    ∃ t, exec (.evFrameIn 0x7E0 ⟨0x33, 0, 0, 0, 0, 0, 0, 0⟩) (nodeB 2 5) = .next t :=
  ⟨⟨_, rfl⟩, ⟨_, rfl⟩, by decide, ⟨_, rfl⟩⟩

theorem witness_SenderIgnoresAdvertisedValues : ∃ (i : Instr) (s t : State), i = .evTmoTxStmin ∧ exec i s = .next t :=
  ⟨.evTmoTxStmin, pausing [1] 1 0 1, _, rfl, rfl⟩

/-- A step that sends a frame and confirms. -/
def starting : State := withInputs [.word (.event [1, 0, 0, 0, 0])] nodeA

theorem witness_OutputsAppendedOneFrameAtMost : ∃ s t : State, step s = .next t := ⟨starting, _, rfl⟩

theorem witness_SentFramesAreWellFormed : ∃ (s t : State) (id : Ident) (f : Frame) (r : ChannelResult),
    step s = .next t ∧ Output.frame id f r ∈ newOut s t :=
  ⟨starting, _, 0x7E0, ⟨0, 0, 0, 0, 0, 0, 0, 0⟩, .ok, rfl, by decide⟩

theorem witness_TxConfirmLeavesSenderIdle : ∃ (s t : State) (c : TxCode),
    inv s ∧ step s = .next t ∧ Output.ind (.txConfirm c) ∈ newOut s t :=
  ⟨starting, _, .success, by decide, rfl, by decide⟩

/-- A guard's Flow Control, sent while the Sender is IDLE. -/
theorem witness_IdleSenderSendsNothing : ∃ (i : Instr) (s t : State) (id : Ident) (f : Frame) (r : ChannelResult),
    s.tx.state = .idle ∧ (∀ p, i ≠ .evTxStart p) ∧ exec i s = .next t ∧ Output.frame id f r ∈ newOut s t :=
  ⟨.evTmoRxGuard, setTimer .rxGuard true (nodeB 2 5), _, 0x7E8, ⟨0x30, 2, 5, 0, 0, 0, 0, 0⟩, .ok, by decide,
    by simp, rfl, by decide⟩

theorem witness_OneTxConfirmPerTransfer : ∃ s t : State, s.inputs.head? ≠ some .reset ∧ step s = .next t :=
  ⟨starting, _, by decide, rfl⟩

/-- A Receiver that holds 6 of 13 bytes and gets CF 1. -/
def finishing : State :=
  withInputs [.word (.event [3, 0, 0, 0, 0, 0, 7, 14, 0, 2, 1, 0, 6, 0, 7, 0, 8, 0, 9, 0, 10, 0, 11, 0, 12])]
    (receiving [0, 1, 2, 3, 4, 5] 13 1 0)

theorem witness_OneIndicationPerReception : ∃ s t : State,
    s.inputs.head? ≠ some .reset ∧ s.rx.state = .awaitCf ∧ step s = .next t := ⟨finishing, _, by decide, by decide, rfl⟩

theorem witness_BufferLengthLaw : ∃ s t : State, inv s ∧ step s = .next t := ⟨finishing, _, by decide, rfl⟩

theorem witness_IndicationHasDeclaredLength : ∃ (s t : State) (f : Frame) (p : List Byte), inv s ∧
    s.rx.state = .awaitCf ∧ 0x20 ≤ f.f0.toNat ∧ f.f0.toNat ≤ 0x2F ∧ exec (.evFrameIn s.cfg.rxId f) s = .next t ∧
    Output.ind (.rxIndication p) ∈ newOut s t :=
  ⟨receiving [0, 1, 2, 3, 4, 5] 13 1 0, _, ⟨0x21, 6, 7, 8, 9, 10, 11, 12⟩,
    [0, 1, 2, 3, 4, 5, 6, 7, 8, 9, 10, 11, 12], by decide, by decide, by decide, by decide, rfl, by decide⟩

theorem witness_StminPauseDuration : ∃ a b c d e f : Byte, (a.toNat ≤ 0x7F ∧ a = 0x7F) ∧
    (0xF1 ≤ b.toNat ∧ b.toNat ≤ 0xF9 ∧ b = 0xF1) ∧ (0xF1 ≤ c.toNat ∧ c.toNat ≤ 0xF9 ∧ c = 0xF9) ∧
    ((0x80 ≤ d.toNat ∧ d.toNat ≤ 0xF0) ∧ d = 0x80) ∧ ((0x80 ≤ e.toNat ∧ e.toNat ≤ 0xF0) ∧ e = 0xF0) ∧
    0xFA ≤ f.toNat ∧ f = 0xFA :=
  ⟨0x7F, 0xF1, 0xF9, 0x80, 0xF0, 0xFA, by decide⟩

theorem witness_StepKeepsInvariants : inv State.reset ∧ inv finishing ∧ ∃ t, step finishing = .next t :=
  ⟨by decide, by decide, ⟨_, rfl⟩⟩

theorem witness_SenderTransfersPayload : ∃ (p : List Byte) (fc : Frame) (s : State) (more : List ChannelResult),
    s.tx.state = .idle ∧ 8 ≤ p.length ∧ p.length ≤ 4095 ∧ fc.f0 = 0x30 ∧
    s.channel = List.replicate (cfCount p.length + 1) .ok ++ more :=
  ⟨[0, 1, 2, 3, 4, 5, 6, 7], fcFrame, nodeA, [], by decide⟩

/-- The events of V-SRC-4: 5 CFs in blocks of 3. -/
theorem test_sendEvents : sendEvents 0x7E8 ⟨0x30, 3, 0, 0, 0, 0, 0, 0⟩ 5 =
    [.evFrameIn 0x7E8 ⟨0x30, 3, 0, 0, 0, 0, 0, 0⟩, .evTmoTxStmin, .evTmoTxStmin,
      .evFrameIn 0x7E8 ⟨0x30, 3, 0, 0, 0, 0, 0, 0⟩, .evTmoTxStmin] := by decide

theorem witness_ReceiverReassemblesPayload : ∃ (p : List Byte) (s : State),
    8 ≤ p.length ∧ p.length ≤ 4095 ∧ p.length ≤ s.params.rxBufCap.toNat :=
  ⟨[0, 1, 2, 3, 4, 5, 6, 7], nodeB 2 5, by decide⟩

end Sys2Proof.Tests
end

section
/-! The step taken apart: the oldest input leaves the queue, then a word is decoded and run (00_scope R7, 20_memory R71).
These rules go forward, from the input to what `step` answers; `step_next_cases` goes back from the answer. -/

namespace Sys2Proof.Machine

/-- Under a legal configuration a step with an input waiting runs its oldest input, which leaves the queue first. -/
theorem step_of_inputs_cons {s : State} {x : Input} {xs : List Input} (hc : cfgLegal s.cfg = true)
    (hi : s.inputs = x :: xs) : step s = stepOn x { s with inputs := xs } := by
  simp only [step, hc, hi, if_true]

/-- A word that decodes to an instruction is run as that instruction. -/
theorem stepOn_word_of_decode_instr {w : PortWord} {i : Instr} (hd : decode w = .instr i) (s : State) :
    stepOn (.word w) s = exec i s := by
  simp only [stepOn, hd]

/-- Settles O3: the input leaves the queue, then its word is decoded and run. Well-formedness of the instruction is not
needed. -/
theorem stepRunsDecodedInstruction : Obligations.StepRunsDecodedInstruction := by
  intro s w xs i hc hi hd _
  calc step s = stepOn (.word w) { s with inputs := xs } := step_of_inputs_cons hc hi
    _ = exec i { s with inputs := xs } := stepOn_word_of_decode_instr hd _

end Sys2Proof.Machine
end

section
/-! What every move keeps: CFG, the parameters and the inputs (10_state R25, R51), and the invariants of the two units
(R48, R49). Each is one case analysis over `Move`; a step then inherits it through `step_move`. -/

namespace Sys2Proof.Machine

open Sys2Proof.Safety

/-! ## What EmitCF and Complete leave alone -/

/-- EmitCF writes no register but the Sender's (R132). -/
theorem emitCf_keeps (s : State) :
    (emitCf s).cfg = s.cfg ∧ (emitCf s).params = s.params ∧ (emitCf s).inputs = s.inputs ∧ (emitCf s).rx = s.rx := by
  rcases emitCf_cases s with ⟨_, h⟩ | ⟨_, _, h⟩ | ⟨_, _, _, h⟩ | ⟨_, _, _, h⟩ <;> rw [h] <;>
    exact ⟨rfl, rfl, rfl, rfl⟩

@[simp] theorem emitCf_cfg (s : State) : (emitCf s).cfg = s.cfg := (emitCf_keeps s).1
@[simp] theorem emitCf_params (s : State) : (emitCf s).params = s.params := (emitCf_keeps s).2.1
@[simp] theorem emitCf_inputs (s : State) : (emitCf s).inputs = s.inputs := (emitCf_keeps s).2.2.1
@[simp] theorem emitCf_rx (s : State) : (emitCf s).rx = s.rx := (emitCf_keeps s).2.2.2

@[simp] theorem complete_cfg (s : State) : (complete s).cfg = s.cfg := by rw [complete_eq]
@[simp] theorem complete_params (s : State) : (complete s).params = s.params := by rw [complete_eq]
@[simp] theorem complete_inputs (s : State) : (complete s).inputs = s.inputs := by rw [complete_eq]
@[simp] theorem complete_tx (s : State) : (complete s).tx = s.tx := by rw [complete_eq]

/-! ## The block counters -/

/-- TX.FSIB and RX.FRIB stand far enough below 2^10 that counting one more frame does not wrap. -/
theorem toNat_add_one {n : BitVec 10} (h : n.toNat ≤ 585) : (n + 1#10).toNat = n.toNat + 1 := by bv_omega

/-- A counter reaches the block size exactly when the number of frames does. -/
theorem add_one_eq_zeroExtend_iff {n : BitVec 10} (h : n.toNat ≤ 585) (b : BitVec 8) :
    n + 1 = b.zeroExtend 10 ↔ n.toNat + 1 = b.toNat := by
  rw [← toNat_add_one h, ← BitVec.toNat_inj, BitVec.toNat_setWidth, Nat.mod_eq_of_lt (by omega)]; rfl

/-- A block that has sent nothing yet has room, whatever its size. -/
theorem zero_toNat_lt {b : BitVec 8} (h : b ≠ 0) : (0 : BitVec 10).toNat < b.toNat := by bv_omega

/-! ## The Sender -/

/-- The Sender's registers where EmitCF runs: a transfer in progress with both timers stopped and room in its block. -/
structure ReadyForCf (t : Tx) : Prop where
  fcArmed : t.fcArmed = false
  stminArmed : t.stminArmed = false
  remaining : 1 ≤ t.remaining.length
  count : 7 * t.fsib.toNat + t.remaining.length ≤ 4089
  block : t.bs ≠ 0 → t.fsib.toNat < t.bs.toNat

/-- A CTS makes an awaiting Sender ready: the block counter starts again (R133). -/
theorem ctsRecorded_readyForCf {s : State} (h : senderInv s.tx) (ha : s.awaitsFc = true) (bs st : Byte) :
    ReadyForCf (ctsRecorded bs st s).tx := by
  obtain ⟨_, _, hstmin, hrem, _, _, hlen, _, _⟩ := h
  rw [awaitsFc_iff] at ha
  have hne : s.tx.state ≠ .idle ∧ s.tx.state ≠ .sendingBlock := by rcases ha with h | h <;> simp [h]
  exact {
    fcArmed := rfl
    stminArmed := by simpa using mt hstmin.mpr hne.2
    remaining := hrem hne.1
    count := by simpa using hlen
    block := fun hbs : bs ≠ 0 => zero_toNat_lt hbs }

/-- The end of the STmin pause makes the Sender ready (R138). -/
theorem disarm_txStmin_readyForCf {s : State} (h : senderInv s.tx) (hs : s.tx.state = .sendingBlock) :
    ReadyForCf (disarm .txStmin s).tx := by
  obtain ⟨_, hfc, _, hrem, hblock, _, _, _, hcount⟩ := h
  have hne : s.tx.state ≠ .idle := by simp [hs]
  exact {
    fcArmed := by simpa [hs] using hfc
    stminArmed := rfl
    remaining := hrem hne
    count := hcount hne
    block := fun hbs => (hblock hs hbs).2 }

/-- AbortTx leads to an IDLE Sender that meets its invariants (R141). -/
theorem abortTx_senderInv {s : State} (h : s.tx.fsib.toNat ≤ 585) (c : TxCode) : senderInv (abortTx c s).tx := by
  simpa [senderInv] using h

/-- EmitCF leads a ready Sender to a state that meets its invariants: IDLE, AWAIT_FC or SENDING_BLOCK (R132). -/
theorem emitCf_senderInv {s : State} (h : ReadyForCf s.tx) : senderInv (emitCf s).tx := by
  obtain ⟨hfc, hstmin, hrem, hcount, hblock⟩ := h
  have hfsib : s.tx.fsib.toNat ≤ 584 := by omega
  have hsucc := toNat_add_one (n := s.tx.fsib) (by omega)
  have hfull := add_one_eq_zeroExtend_iff (n := s.tx.fsib) (by omega) s.tx.bs
  rcases emitCf_cases s with ⟨_, h⟩ | ⟨_, hlast, h⟩ | ⟨_, hmore, _, h⟩ | ⟨_, hmore, hroom, h⟩ <;> rw [h]
  · exact abortTx_senderInv (by simpa using Nat.le_succ_of_le hfsib) _
  · simp [senderInv, hfc, hstmin, hsucc]
    omega
  · simp [senderInv, hstmin, hsucc]
    omega
  · have hopen : s.tx.bs ≠ 0 → s.tx.fsib.toNat + 1 < s.tx.bs.toNat := fun hbs =>
      Nat.lt_of_le_of_ne (hblock hbs) fun he => hroom ⟨hbs, hfull.mpr he⟩
    simp [senderInv, hfc, hsucc]
    bv_omega

/-- A FF that went out begins to await Flow Control (R131). -/
theorem ffSent_senderInv {s : State} (h : senderInv s.tx) (hi : s.tx.state = .idle) {p : List Byte}
    (h7 : 7 < p.length) (hl : p.length ≤ 4095) : senderInv (ffSent p s).tx := by
  obtain ⟨hidle, _⟩ := h
  have hstmin := (hidle hi).2
  simp [senderInv, hstmin]
  omega

/-- Every move keeps the invariants of the Sender (R48). -/
theorem Move.keeps_senderInv {s t : State} (m : Move s t) (h : senderInv s.tx) : senderInv t.tx := by
  have ⟨_, hfc, hstmin, _, _, _, _, hfsib, _⟩ := h
  cases m with
  | stay | codec | rejected | single | firstErr | frameError | sfIdle | sfAwait | ffAccept | ffOver | cfMismatch
  | cfBlock | cfNext | cfTimeout | guard | strayRxCf => exact h
  | cfComplete => rw [complete_tx]; exact h
  | firstOk p hi h7 hl => exact ffSent_senderInv h hi h7 hl
  | cancel | ovflw | fcTimeout => exact abortTx_senderInv hfsib _
  | cts bs st ha => exact emitCf_senderInv (ctsRecorded_readyForCf h ha bs st)
  | stmin hs => exact emitCf_senderInv (disarm_txStmin_readyForCf h hs)
  | wait ha =>
    have hkeep : (arm .txFc s).tx = s.tx := by rw [arm_txFc_tx, ← hfc.mp ((awaitsFc_iff s).mp ha)]
    rwa [hkeep]
  | strayTxFc ha harmed => simp [(awaitsFc_iff s).mpr (hfc.mpr harmed)] at ha
  | strayTxStmin hs harmed => exact absurd (hstmin.mpr harmed) hs

/-! ## The Receiver -/

/-- A Receiver that is IDLE and holds nothing meets its invariants, if its guard is armed only where the parameter allows
that. -/
theorem receiverInv_of_idle {c : Cfg} {p : Params} {r : Rx} (hs : r.state = .idle) (hcf : r.cfArmed = false)
    (hbuf : r.buf = []) (hfrib : r.frib = 0) (hguard : r.guardArmed = true → p.rxFcAfterFinalBlock = true) :
    receiverInv c p r :=
  ⟨fun _ => ⟨hcf, hbuf⟩, by simp [hs], by rw [hfrib]; exact zero_toNat_lt, fun _ => hguard, fun _ => hfrib,
    by simp [hs]⟩

/-- An accepted FF begins a reassembly within the capacity (R150). -/
theorem ffAccepted_receiverInv {s : State} {n : Nat} {d : List Byte} (hn : n ≤ s.params.rxBufCap.toNat)
    (hd : d.length = 6) : receiverInv s.cfg s.params (ffAccepted n d s).rx := by
  have htotal : (BitVec.ofNat 12 n).toNat = n := by
    rw [BitVec.toNat_ofNat, Nat.mod_eq_of_lt (by omega)]
  have hshort : 6 < n ∨ n ≤ 6 := by omega
  simpa [receiverInv, htotal, hd, hn, hshort] using zero_toNat_lt (b := s.cfg.bs)

/-- The end of a reassembly leaves the guard armed only where the parameter asks for its Flow Control (R155). -/
theorem complete_receiverInv (s : State) : receiverInv s.cfg s.params (complete s).rx := by
  rw [complete_eq]
  refine receiverInv_of_idle rfl rfl rfl rfl ?_
  cases s.params.rxFcAfterFinalBlock <;> simp

/-- A CF that leaves the payload short keeps the invariants, whether the block goes on and the counter advances or the
block is full and the counter starts again (R154, R156). -/
theorem cfAppended_receiverInv {s : State} (h : receiverInv s.cfg s.params s.rx) (hs : s.rx.state = .awaitCf)
    {d : List Byte} (hd : d.length = 7) (hc : s.rx.buf.length + 7 < s.rx.total.toNat) (g : Bool) {n : BitVec 10}
    (hn : n.toNat ≤ s.rx.frib.toNat + 1) (hblock : s.cfg.bs ≠ 0 → n.toNat < s.cfg.bs.toNat) :
    receiverInv s.cfg s.params { (cfAppended d s).rx with frib := n, guardArmed := g } := by
  obtain ⟨_, _, _, _, _, hbounds⟩ := h
  obtain ⟨hcap, hcount⟩ := hbounds hs
  have hlen : (cfAppended d s).rx.buf.length = s.rx.buf.length + 7 := by
    rw [cfAppended_length hd, cfTake, Config.cfData]
    omega
  refine ⟨by simp [hs], fun _ => ⟨rfl, .inl ?_⟩, hblock, by simp [hs], by simp [hs], fun _ => ⟨hcap, ?_⟩⟩
  · rw [hlen]; exact hc
  · rw [hlen]; dsimp only; omega

/-- Every move keeps the invariants of the Receiver (R49), under the CFG and the parameters it started with. -/
theorem Move.keeps_receiverInv {s t : State} (m : Move s t) (h : receiverInv s.cfg s.params s.rx) :
    receiverInv s.cfg s.params t.rx := by
  have ⟨hidle, hawait, hblock, _, hclear, hbounds⟩ := h
  cases m with
  | stay | codec | rejected | single | firstErr | firstOk | cancel | wait | ovflw | fcTimeout | strayTxFc
  | strayTxStmin | frameError | sfIdle => exact h
  | cts | stmin => rw [emitCf_rx]; exact h
  | sfAwait | ffOver | cfMismatch | cfTimeout => exact receiverInv_of_idle rfl rfl rfl rfl (by simp)
  | ffAccept n d hn hd => exact ffAccepted_receiverInv hn hd
  | cfComplete d => exact complete_receiverInv (cfAppended d s)
  | cfBlock d hd hs hc hb =>
    exact cfAppended_receiverInv h hs hd hc true (Nat.zero_le _) zero_toNat_lt
  | cfNext d hd hs hc hb =>
    have hfrib : s.rx.frib.toNat ≤ 585 := by have := hbounds hs; omega
    have hsucc := toNat_add_one hfrib
    exact cfAppended_receiverInv h hs hd hc s.rx.guardArmed hsucc.le fun hbs => hsucc.trans_lt <|
      Nat.lt_of_le_of_ne (hblock hbs) fun he => hb ⟨hbs, (add_one_eq_zeroExtend_iff hfrib _).mpr he⟩
  | strayRxCf hs harmed => simp [(hidle hs).1] at harmed
  | guard => exact ⟨hidle, hawait, hblock, nofun, hclear, hbounds⟩

/-! ## The step -/

/-- No move writes CFG or the parameters, or touches the inputs still waiting (R25, R201). -/
theorem Move.keeps_cfg_params_inputs {s t : State} (m : Move s t) :
    t.cfg = s.cfg ∧ t.params = s.params ∧ t.inputs = s.inputs := by
  cases m with
  | cts | stmin | cfComplete => simp
  | _ => exact ⟨rfl, rfl, rfl⟩

/-- Settles O46: the step takes its oldest input, and what it then does keeps CFG, the parameters and the other
inputs. -/
theorem stepKeepsConfiguration : Obligations.StepKeepsConfiguration := by
  intro s t h
  rcases step_move h with ⟨hi, rfl⟩ | ⟨xs, hi, rfl⟩ | ⟨w, xs, hi, m⟩
  · exact ⟨rfl, rfl, by simp [hi]⟩
  · exact ⟨rfl, rfl, by simp [hi]⟩
  · simpa [hi] using m.keeps_cfg_params_inputs

/-- Settles O58: the reset values meet the invariants, and every move keeps them. -/
theorem stepKeepsInvariants : Obligations.StepKeepsInvariants := by
  intro s t ⟨htx, hrx⟩ h
  have ⟨hcfg, hparams, _⟩ := stepKeepsConfiguration s t h
  rcases step_move h with ⟨_, rfl⟩ | ⟨xs, _, rfl⟩ | ⟨w, xs, _, m⟩
  · exact ⟨htx, hrx⟩
  · exact ⟨by simp [senderInv, Tx.reset], receiverInv_of_idle rfl rfl rfl rfl (by simp [Rx.reset])⟩
  · rw [inv, hcfg, hparams]
    exact ⟨m.keeps_senderInv htx, m.keeps_receiverInv hrx⟩

end Sys2Proof.Machine
end

section
/-! The two units run side by side (10_state R50, R51): a Sender procedure commutes with putting another Receiver state
into the block, and a Receiver procedure with putting another Sender state into it. That it leaves the other unit alone
follows: put into the block the state that the other unit already has. -/

namespace Sys2Proof.Machine

open Sys2Proof.Safety

/-- The block with another Receiver state. -/
def putRx (u : Rx) (s : State) : State := { s with rx := u }

/-- The block with another Sender state. -/
def putTx (u : Tx) (s : State) : State := { s with tx := u }

@[simp] theorem putRx_answer (u : Rx) (s : State) : (putRx u s).answer = s.answer := rfl
@[simp] theorem putTx_rx (u : Tx) (s : State) : (putTx u s).rx = s.rx := rfl

/-- A procedure that commutes with every other Receiver state leaves the Receiver alone. -/
theorem rx_eq_of_commute {f : State → State} (h : ∀ u, Function.Commute f (putRx u)) (s : State) : (f s).rx = s.rx :=
  (congrArg State.rx (h s.rx s) :)

/-- A procedure that commutes with every other Sender state leaves the Sender alone. -/
theorem tx_eq_of_commute {f : State → State} (h : ∀ u, Function.Commute f (putTx u)) (s : State) : (f s).tx = s.tx :=
  (congrArg State.tx (h s.tx s) :)

/-- A choice between two procedures commutes with w when both do and w does not change what the choice depends on. -/
theorem commute_ite {w g h : State → State} {P : State → Prop} [DecidablePred P] (hP : ∀ s, P (w s) ↔ P s)
    (hg : Function.Commute g w) (hh : Function.Commute h w) :
    Function.Commute (fun s => if P s then g s else h s) w := by
  intro s
  by_cases hs : P s
  · simp only [hP, hs, if_true, hg s]
  · simp only [hP, hs, if_false, hh s]

/-- An expiry commutes with w when its rule does and w neither reads nor writes the timer. -/
theorem commute_expire {w rule : State → State} {t : Timer} (ht : ∀ s, (w s).armed t = s.armed t)
    (hd : Function.Commute (disarm t) w) (hr : Function.Commute rule w) : Function.Commute (expire t rule) w :=
  commute_ite (P := fun s => s.armed t = true) (fun s => by rw [ht]) (hr.comp_left hd) (fun _ => rfl)

/-- A frame that carries a Flow Control decodes to one. -/
theorem codecDecode_of_carriesFc {f : Frame} (h : carriesFc f = true) :
    ∃ fs bs st, codecDecode f = .pdu (.fc fs bs st) := by
  unfold carriesFc at h
  split at h
  · next fs bs st hdec => exact ⟨fs, bs, st, hdec⟩
  all_goals cases h

/-! ## The Sender's procedures -/

section Sender
variable (u : Rx)

theorem afterCf_commute_putRx : Function.Commute afterCf (putRx u) :=
  commute_ite (P := fun s => s.tx.remaining = []) (fun _ => Iff.rfl) (fun _ => rfl)
    (commute_ite (P := fun s => s.tx.bs ≠ 0 ∧ s.tx.fsib = s.tx.bs.zeroExtend 10) (fun _ => Iff.rfl) (fun _ => rfl)
      (fun _ => rfl))

theorem emitCf_commute_putRx : Function.Commute emitCf (putRx u) := by
  intro s
  simp only [emitCf, putRx_answer]
  cases s.answer with
  | err => rfl
  | ok => dsimp only; rw [← (afterCf_commute_putRx u).semiconj.eq]; rfl

theorem startSingle_commute_putRx (p : List Byte) : Function.Commute (startSingle p) (putRx u) := by
  intro s
  simp only [startSingle, respond_answer, putRx_answer]
  cases s.answer <;> rfl

theorem startFirst_commute_putRx (p : List Byte) : Function.Commute (startFirst p) (putRx u) := by
  intro s
  simp only [startFirst, respond_answer, putRx_answer]
  cases s.answer <;> rfl

theorem txStart_commute_putRx (p : List Byte) : Function.Commute (txStart p) (putRx u) :=
  commute_ite (P := fun s => s.tx.state ≠ .idle) (fun _ => Iff.rfl) (fun _ => rfl)
    (commute_ite (P := fun _ => p.length > Config.maxLen) (fun _ => Iff.rfl) (fun _ => rfl)
      (commute_ite (P := fun _ => p.length ≤ Config.maxSfLen) (fun _ => Iff.rfl) (startSingle_commute_putRx u p)
        (startFirst_commute_putRx u p)))

theorem txCancel_commute_putRx : Function.Commute txCancel (putRx u) :=
  commute_ite (P := fun s => s.tx.state = .idle) (fun _ => Iff.rfl) (fun _ => rfl) (fun _ => rfl)

theorem onFlowControl_commute_putRx (fs : FlowStatus) (bs st : Byte) :
    Function.Commute (onFlowControl fs bs st) (putRx u) := by
  refine commute_ite (P := fun s => s.awaitsFc = true) (fun _ => Iff.rfl) ?_ (fun _ => rfl)
  cases fs with
  | cts => exact (emitCf_commute_putRx u).comp_left (fun _ => rfl)
  | wait => exact fun _ => rfl
  | ovflw => exact fun _ => rfl

theorem tmoTxFc_commute_putRx : Function.Commute tmoTxFc (putRx u) :=
  commute_expire (fun _ => rfl) (fun _ => rfl)
    (commute_ite (P := fun s => s.awaitsFc = true) (fun _ => Iff.rfl) (fun _ => rfl) (fun _ => rfl))

theorem tmoTxStmin_commute_putRx : Function.Commute tmoTxStmin (putRx u) :=
  commute_expire (fun _ => rfl) (fun _ => rfl)
    (commute_ite (P := fun s => s.tx.state = .sendingBlock) (fun _ => Iff.rfl) (emitCf_commute_putRx u) (fun _ => rfl))

end Sender

/-- A Flow Control's frame runs the Sender's procedure or nothing, and the Receiver's state decides neither. -/
theorem frameIn_commute_putRx (u : Rx) (id : Ident) {f : Frame} (hf : carriesFc f = true) :
    Function.Commute (frameIn id f) (putRx u) := by
  refine commute_ite (P := fun s => id = s.cfg.rxId) (fun _ => Iff.rfl) ?_ (fun _ => rfl)
  obtain ⟨fs, bs, st, hdec⟩ := codecDecode_of_carriesFc hf
  rw [hdec]
  exact onFlowControl_commute_putRx u fs bs st

/-- Settles O48: each event of the Sender runs one procedure, which commutes with any other Receiver state. -/
theorem senderIndependentOfReceiver : Obligations.SenderIndependentOfReceiver := by
  intro i s t u hi h
  obtain ⟨g, hg, hcomm⟩ : ∃ g : State → State, (∀ s, exec i s = .next (g s)) ∧ ∀ u, Function.Commute g (putRx u) := by
    rcases hi with rfl | rfl | rfl | ⟨p, rfl⟩ | ⟨id, f, rfl, hf⟩
    · exact ⟨_, exec_evTxCancel, txCancel_commute_putRx⟩
    · exact ⟨_, exec_evTmoTxFc, tmoTxFc_commute_putRx⟩
    · exact ⟨_, exec_evTmoTxStmin, tmoTxStmin_commute_putRx⟩
    · exact ⟨_, exec_evTxStart p, fun u => txStart_commute_putRx u p⟩
    · exact ⟨_, exec_evFrameIn id f, fun u => frameIn_commute_putRx u id hf⟩
  obtain rfl : g s = t := Host.Outcome.next.inj ((hg s).symm.trans h)
  exact ⟨rx_eq_of_commute hcomm s, (hg _).trans (congrArg Host.Outcome.next (hcomm u s))⟩

/-! ## The Receiver's procedures -/

section Receiver
variable (u : Tx)

theorem onSf_commute_putTx (d : List Byte) : Function.Commute (onSf d) (putTx u) := by
  intro s
  simp only [onSf, putTx_rx]
  cases s.rx.state <;> rfl

theorem onFf_commute_putTx (n : Nat) (d : List Byte) : Function.Commute (onFf n d) (putTx u) :=
  commute_ite (P := fun s => n ≤ s.params.rxBufCap.toNat) (fun _ => Iff.rfl) (fun _ => rfl) (fun _ => rfl)

theorem complete_commute_putTx : Function.Commute complete (putTx u) := by
  intro s
  simp only [complete_eq]
  rfl

theorem blockCheck_commute_putTx : Function.Commute blockCheck (putTx u) :=
  commute_ite (P := fun s => s.cfg.bs ≠ 0 ∧ s.rx.frib = s.cfg.bs.zeroExtend 10) (fun _ => Iff.rfl) (fun _ => rfl)
    (fun _ => rfl)

theorem acceptCf_commute_putTx (d : List Byte) : Function.Commute (acceptCf d) (putTx u) :=
  have happend : Function.Commute (cfAppended d) (putTx u) := fun _ => rfl
  commute_ite (g := complete ∘ cfAppended d) (h := blockCheck ∘ cfAppended d)
    (P := fun s => (cfAppended d s).rx.total.toNat ≤ (cfAppended d s).rx.buf.length) (fun _ => Iff.rfl)
    ((complete_commute_putTx u).comp_left happend) ((blockCheck_commute_putTx u).comp_left happend)

theorem onCf_commute_putTx (sn : Nat) (d : List Byte) : Function.Commute (onCf sn d) (putTx u) := by
  intro s
  simp only [onCf, putTx_rx]
  cases s.rx.state with
  | idle => rfl
  | awaitCf =>
    exact commute_ite (w := putTx u) (h := abortRx .sequenceMismatch) (P := fun s => sn = s.rx.esn.toNat)
      (fun _ => Iff.rfl) (acceptCf_commute_putTx u d) (fun _ => rfl) s

theorem tmoRxCf_commute_putTx : Function.Commute tmoRxCf (putTx u) :=
  commute_expire (fun _ => rfl) (fun _ => rfl)
    (commute_ite (P := fun s => s.rx.state = .awaitCf) (fun _ => Iff.rfl) (fun _ => rfl) (fun _ => rfl))

theorem tmoRxGuard_commute_putTx : Function.Commute tmoRxGuard (putTx u) :=
  commute_expire (fun _ => rfl) (fun _ => rfl) (fun _ => rfl)

end Receiver

/-- A frame that carries no Flow Control runs a procedure of the Receiver, reports an error or does nothing, and the
Sender's state decides none of it. -/
theorem frameIn_commute_putTx (u : Tx) (id : Ident) {f : Frame} (hf : carriesFc f = false) :
    Function.Commute (frameIn id f) (putTx u) := by
  refine commute_ite (P := fun s => id = s.cfg.rxId) (fun _ => Iff.rfl) ?_ (fun _ => rfl)
  cases hdec : codecDecode f with
  | error e => exact fun _ => rfl
  | pdu p =>
    cases p with
    | sf l d => exact onSf_commute_putTx u d
    | ff n d => exact onFf_commute_putTx u n d
    | cf n d => exact onCf_commute_putTx u n d
    | fc fs bs st => simp [carriesFc, hdec] at hf

/-- Settles O49: each event of the Receiver runs one procedure, which commutes with any other Sender state. -/
theorem receiverIndependentOfSender : Obligations.ReceiverIndependentOfSender := by
  intro i s t u hi h
  obtain ⟨g, hg, hcomm⟩ : ∃ g : State → State, (∀ s, exec i s = .next (g s)) ∧ ∀ u, Function.Commute g (putTx u) := by
    rcases hi with rfl | rfl | ⟨id, f, rfl, hf⟩
    · exact ⟨_, exec_evTmoRxCf, tmoRxCf_commute_putTx⟩
    · exact ⟨_, exec_evTmoRxGuard, tmoRxGuard_commute_putTx⟩
    · exact ⟨_, exec_evFrameIn id f, fun u => frameIn_commute_putTx u id hf⟩
  obtain rfl : g s = t := Host.Outcome.next.inj ((hg s).symm.trans h)
  exact ⟨tx_eq_of_commute hcomm s, (hg _).trans (congrArg Host.Outcome.next (hcomm u s))⟩

end Sys2Proof.Machine
end

section
/-! The TxConfirms of a step (10_state R29), counted once for each move. -/

namespace Sys2Proof.Machine

open Sys2Proof.Safety

/-- The step from s to t puts out as many TxConfirms as R29 asks for: one where it ends a transfer or accepts a TX_START
that leaves the Sender IDLE, and none elsewhere. -/
def ConfirmsEnds (s t : State) : Prop :=
  ((newOut s t).filter isTxConfirm).length =
    if s.tx.state ≠ .idle ∧ t.tx.state = .idle then 1
    else if s.tx.state = .idle ∧ t.tx.state = .idle ∧ Output.resp .accepted ∈ newOut s t then 1
    else 0

/-- What t has put out after s is what stands after the outputs of s. -/
theorem newOut_eq {s t : State} {os : List Output} (h : t.out = s.out ++ os) : newOut s t = os := by
  simp [newOut, h]

/-- A transfer ends with one TxConfirm. -/
theorem confirmsEnds_of_end {s t : State} {os : List Output} (hs : s.tx.state ≠ .idle) (ht : t.tx.state = .idle)
    (ho : t.out = s.out ++ os) (hone : (os.filter isTxConfirm).length = 1) : ConfirmsEnds s t := by
  rw [ConfirmsEnds, newOut_eq ho, hone, if_pos ⟨hs, ht⟩]

/-- An accepted TX_START that leaves the Sender IDLE puts out one TxConfirm. -/
theorem confirmsEnds_of_start {s t : State} {id : Ident} {f : Frame} {r : ChannelResult} {c : TxCode}
    (hs : s.tx.state = .idle) (ht : t.tx.state = .idle)
    (ho : t.out = s.out ++ [.resp .accepted] ++ [.frame id f r] ++ [.ind (.txConfirm c)]) : ConfirmsEnds s t := by
  have hnew : newOut s t = [.resp .accepted, .frame id f r, .ind (.txConfirm c)] := newOut_eq (by simp [ho])
  rw [ConfirmsEnds, if_neg (fun h => h.1 hs), if_pos ⟨hs, ht, by simp [hnew]⟩, hnew]
  rfl

/-- A step that begins or goes on with a transfer puts out no TxConfirm. -/
theorem confirmsEnds_of_busy {s t : State} {os : List Output} (ht : t.tx.state ≠ .idle)
    (ho : t.out = s.out ++ os) (hnone : os.filter isTxConfirm = []) : ConfirmsEnds s t := by
  rw [ConfirmsEnds, newOut_eq ho, hnone, if_neg (fun h => ht h.2), if_neg (fun h => ht h.2.1), List.length_nil]

/-- A step that leaves TX.STATE as it was and accepts no TX_START puts out no TxConfirm. -/
theorem confirmsEnds_of_kept {s t : State} {os : List Output} (ht : t.tx.state = s.tx.state)
    (ho : t.out = s.out ++ os) (hacc : .resp .accepted ∉ os) (hnone : os.filter isTxConfirm = []) :
    ConfirmsEnds s t := by
  rw [ConfirmsEnds, newOut_eq ho, hnone, if_neg (fun h => h.1 (ht ▸ h.2)), if_neg (fun h => hacc h.2.2), List.length_nil]

/-- AbortTx of a transfer reports its end once (R141). -/
theorem abortTx_confirmsEnds {s : State} (hs : s.tx.state ≠ .idle) (c : TxCode) : ConfirmsEnds s (abortTx c s) :=
  confirmsEnds_of_end hs rfl (abortTx_out c s) rfl

/-- EmitCF in a transfer reports its end once, where the channel fails or the payload is exhausted, and nothing where
the transfer goes on (R132). -/
theorem emitCf_confirmsEnds {s : State} (hs : s.tx.state ≠ .idle) : ConfirmsEnds s (emitCf s) := by
  rcases emitCf_cases s with ⟨_, h⟩ | ⟨_, _, h⟩ | ⟨_, _, _, h⟩ | ⟨_, _, _, h⟩ <;> rw [h]
  · exact confirmsEnds_of_end hs rfl (List.append_assoc _ _ _) rfl
  · exact confirmsEnds_of_end hs rfl (List.append_assoc _ _ _) rfl
  · exact confirmsEnds_of_busy nofun (channelSend_out _ _ s) rfl
  · exact confirmsEnds_of_busy nofun (channelSend_out _ _ s) rfl

/-- A Sender that awaits Flow Control is in a transfer. -/
theorem ne_idle_of_awaitsFc {s : State} (h : s.awaitsFc = true) : s.tx.state ≠ .idle := by
  intro hi
  simp [awaitsFc_of_idle hi] at h

/-- Every move puts out the TxConfirms of R29. -/
theorem Move.confirmsEnds {s t : State} (m : Move s t) : ConfirmsEnds s t := by
  cases m with
  | stay | codec | strayTxFc | strayTxStmin | strayRxCf | wait | cfBlock | cfNext =>
    exact confirmsEnds_of_kept rfl (List.append_nil _).symm (by simp) rfl
  | rejected | frameError | sfIdle | sfAwait | cfMismatch | cfTimeout | ffAccept | guard =>
    exact confirmsEnds_of_kept rfl rfl (by simp) rfl
  | ffOver => exact confirmsEnds_of_kept rfl (List.append_assoc _ _ _) (by simp) rfl
  | cfComplete d =>
    exact confirmsEnds_of_kept (by simp) (congrArg State.out (complete_eq (cfAppended d s))) (by simp) rfl
  | single p hi | firstErr p hi => exact confirmsEnds_of_start hi hi rfl
  | firstOk p => exact confirmsEnds_of_busy nofun (List.append_assoc _ _ _) rfl
  | cancel hs => exact abortTx_confirmsEnds hs _
  | cts bs st ha => exact emitCf_confirmsEnds (s := ctsRecorded bs st s) (ne_idle_of_awaitsFc ha)
  | ovflw ha => exact abortTx_confirmsEnds (ne_idle_of_awaitsFc ha) _
  | fcTimeout ha => exact abortTx_confirmsEnds (s := disarm .txFc s) (ne_idle_of_awaitsFc ha) _
  | stmin hs => exact emitCf_confirmsEnds (s := disarm .txStmin s) (by simp [hs])

/-- Settles O54: a waiting block puts out nothing, and every move counts as R29 asks. -/
theorem oneTxConfirmPerTransfer : Obligations.OneTxConfirmPerTransfer := by
  intro s t hr h
  rcases step_move h with ⟨_, rfl⟩ | ⟨xs, hi, _⟩ | ⟨w, xs, _, m⟩
  · exact Move.stay.confirmsEnds
  · simp [hi] at hr
  · exact m.confirmsEnds

end Sys2Proof.Machine
end

section
/-! What a step does at the block's ports: new outputs at the end, at most one of them a frame, and one answer of the
channel used for each frame (20_memory R72, 00_scope R17). One case analysis over `Move`: a move sends no frame or
one. -/

namespace Sys2Proof.Machine

open Sys2Proof.Safety

/-- From s to t the block adds its outputs at the end, at most one of them a frame, and the counter and the list of the
channel's answers move by the number of frames. -/
def SendsAtMostOne (s t : State) : Prop :=
  t.out = s.out ++ newOut s t ∧
  ((newOut s t).filter isFrame).length ≤ 1 ∧
  t.draws = s.draws + ((newOut s t).filter isFrame).length ∧
  t.channel = s.channel.drop ((newOut s t).filter isFrame).length

/-- A step that sends no frame leaves the channel alone. -/
theorem sendsAtMostOne_of_silent {s t : State} {os : List Output} (ho : t.out = s.out ++ os)
    (hf : os.filter isFrame = []) (hd : t.draws = s.draws) (hc : t.channel = s.channel) : SendsAtMostOne s t := by
  rw [SendsAtMostOne, newOut_eq ho, hf]
  exact ⟨ho, Nat.zero_le 1, hd, hc⟩

/-- A step that sends one frame draws one answer, the oldest. -/
theorem sendsAtMostOne_of_frame {s t : State} {os : List Output} (ho : t.out = s.out ++ os)
    (hf : (os.filter isFrame).length = 1) (hd : t.draws = s.draws + 1) (hc : t.channel = s.channel.tail) :
    SendsAtMostOne s t := by
  rw [SendsAtMostOne, newOut_eq ho, hf, List.drop_one]
  exact ⟨ho, le_rfl, hd, hc⟩

/-- EmitCF sends its one frame in all four outcomes (R132). -/
theorem emitCf_sendsAtMostOne (s : State) : SendsAtMostOne s (emitCf s) := by
  rcases emitCf_cases s with ⟨_, h⟩ | ⟨_, _, h⟩ | ⟨_, _, _, h⟩ | ⟨_, _, _, h⟩ <;> rw [h]
  · exact sendsAtMostOne_of_frame (List.append_assoc _ _ _) rfl rfl rfl
  · exact sendsAtMostOne_of_frame (List.append_assoc _ _ _) rfl rfl rfl
  · exact sendsAtMostOne_of_frame (channelSend_out _ _ s) rfl rfl rfl
  · exact sendsAtMostOne_of_frame (channelSend_out _ _ s) rfl rfl rfl

/-- Complete reports the payload and sends nothing (R155). -/
theorem complete_sendsAtMostOne (s : State) : SendsAtMostOne s (complete s) := by
  rw [complete_eq]
  exact sendsAtMostOne_of_silent rfl rfl rfl rfl

/-- Every move adds its outputs at the end and sends at most one frame. -/
theorem Move.sendsAtMostOne {s t : State} (m : Move s t) : SendsAtMostOne s t := by
  cases m with
  | stay | codec | wait | strayTxFc | strayTxStmin | strayRxCf | cfBlock | cfNext =>
    exact sendsAtMostOne_of_silent (List.append_nil _).symm rfl rfl rfl
  | rejected | cancel | ovflw | fcTimeout | frameError | sfIdle | sfAwait | cfMismatch | cfTimeout =>
    exact sendsAtMostOne_of_silent rfl rfl rfl rfl
  | cfComplete d => exact complete_sendsAtMostOne (cfAppended d s)
  | single | firstErr =>
    exact sendsAtMostOne_of_frame ((List.append_assoc _ _ _).trans (List.append_assoc _ _ _)) rfl rfl rfl
  | firstOk | ffOver => exact sendsAtMostOne_of_frame (List.append_assoc _ _ _) rfl rfl rfl
  | ffAccept | guard => exact sendsAtMostOne_of_frame rfl rfl rfl rfl
  | cts bs st => exact emitCf_sendsAtMostOne (ctsRecorded bs st s)
  | stmin => exact emitCf_sendsAtMostOne (disarm .txStmin s)

/-! ## The codec's results -/

@[simp] theorem emitCf_codec (s : State) : (emitCf s).codec = s.codec := by
  rcases emitCf_cases s with ⟨_, h⟩ | ⟨_, _, h⟩ | ⟨_, _, _, h⟩ | ⟨_, _, _, h⟩ <;> rw [h] <;> rfl

@[simp] theorem complete_codec (s : State) : (complete s).codec = s.codec := by rw [complete_eq]

/-- A move adds at most a codec request's result, at the end (R126). -/
theorem Move.codec_appended {s t : State} (m : Move s t) : ∃ c, t.codec = s.codec ++ c := by
  cases m with
  | codec r => exact ⟨[r], rfl⟩
  | cts | stmin | cfComplete => exact ⟨[], by simp⟩
  | _ => exact ⟨[], (List.append_nil _).symm⟩

/-- Settles O51: a waiting block and the reset signal put out nothing, and every move sends at most one frame. -/
theorem outputsAppendedOneFrameAtMost : Obligations.OutputsAppendedOneFrameAtMost := by
  intro s t h
  have hstep : SendsAtMostOne s t ∧ ∃ c, t.codec = s.codec ++ c := by
    rcases step_move h with ⟨_, rfl⟩ | ⟨xs, _, rfl⟩ | ⟨w, xs, _, m⟩
    · exact ⟨Move.stay.sendsAtMostOne, Move.stay.codec_appended⟩
    · exact ⟨sendsAtMostOne_of_silent (List.append_nil _).symm rfl rfl rfl, [], (List.append_nil _).symm⟩
    · exact ⟨m.sendsAtMostOne, m.codec_appended⟩
  obtain ⟨⟨hout, hone, hdraws, hchannel⟩, hcodec⟩ := hstep
  exact ⟨hout, hone, hdraws, hchannel, hcodec⟩

end Sys2Proof.Machine
end

section
/-! The event port: decoding undoes encoding and encoding undoes decoding (30_encoding R91, R92). Each reader of a field
is said once, as an equivalence between what it reads and how the word begins; both directions of the port follow. The
order of the nibbles is the model's choice (log 4). -/

namespace Sys2Proof

/-! ## The readers of a word's fields -/

theorem takeByte_eq_some_iff {w rest : List Nibble} {b : Byte} :
    takeByte w = some (b, rest) ↔ w = byteNibbles b ++ rest := by
  match w with
  | [] | [_] => simp [takeByte, byteNibbles]
  | h :: l :: w =>
    constructor
    · rintro ⟨⟩
      simp [byteNibbles]
    · rintro ⟨⟩
      simp [takeByte]

theorem takeBytes_succ_eq_some_iff {n : Nat} {w rest : List Nibble} {bs : List Byte} :
    takeBytes (n + 1) w = some (bs, rest) ↔
      ∃ b w1 bs1, takeByte w = some (b, w1) ∧ takeBytes n w1 = some (bs1, rest) ∧ bs = b :: bs1 := by
  constructor
  · intro h
    rw [takeBytes] at h
    split at h
    · cases h
    next b w1 hb =>
    split at h
    · cases h
    next bs1 w2 hbs =>
    cases h
    exact ⟨b, w1, bs1, hb, hbs, rfl⟩
  · rintro ⟨b, w1, bs1, hb, hbs, rfl⟩
    simp only [takeBytes, hb, hbs]

/-- n bytes are read from a word exactly when it begins with their nibbles. -/
theorem takeBytes_eq_some_iff {n : Nat} {w rest : List Nibble} {bs : List Byte} :
    takeBytes n w = some (bs, rest) ↔ bs.length = n ∧ w = bytesNibbles bs ++ rest := by
  induction n generalizing w bs with
  | zero => cases bs <;> simp [takeBytes, bytesNibbles]
  | succ n ih =>
    rw [takeBytes_succ_eq_some_iff]
    simp only [takeByte_eq_some_iff, ih]
    constructor
    · rintro ⟨b, w1, bs1, rfl, ⟨rfl, rfl⟩, rfl⟩
      simp [bytesNibbles]
    · rintro ⟨hlen, rfl⟩
      match bs, hlen with
      | b :: bs1, hlen => exact ⟨b, _, bs1, by simp [bytesNibbles], ⟨by simpa using hlen, rfl⟩, rfl⟩

theorem takeBytes_bytesNibbles {n : Nat} {bs : List Byte} (h : bs.length = n) (w : List Nibble) :
    takeBytes n (bytesNibbles bs ++ w) = some (bs, w) :=
  takeBytes_eq_some_iff.2 ⟨h, rfl⟩

@[simp] theorem bytesNibbles_append (a b : List Byte) : bytesNibbles (a ++ b) = bytesNibbles a ++ bytesNibbles b := by
  induction a with
  | nil => rfl
  | cons x a ih => simp [bytesNibbles, ih]

/-! ## LEN and ID, most significant byte first -/

theorem lenBytes_length (n : Nat) : (lenBytes n).length = 2 := rfl

theorem identBytes_length (id : Ident) : (identBytes id).length = 4 := rfl

theorem bytesToNat_pair (a b : Byte) : bytesToNat [a, b] = a.toNat * 256 + b.toNat := by
  simp [bytesToNat]

theorem bytesToNat_lenBytes {n : Nat} (h : n ≤ 65535) : bytesToNat (lenBytes n) = n := by
  rw [lenBytes, bytesToNat_pair, BitVec.toNat_ofNat, BitVec.toNat_ofNat]
  omega

theorem bytesToNat_le_of_length_two {s : List Byte} (h : s.length = 2) : bytesToNat s ≤ 65535 := by
  match s, h with
  | [a, b], _ => rw [bytesToNat_pair]; omega

theorem lenBytes_bytesToNat {s : List Byte} (h : s.length = 2) : lenBytes (bytesToNat s) = s := by
  match s, h with
  | [a, b], _ =>
    have ha : BitVec.ofNat 8 ((a.toNat * 256 + b.toNat) / 256) = a := by bv_omega
    have hb : BitVec.ofNat 8 (a.toNat * 256 + b.toNat) = b := by bv_omega
    rw [bytesToNat_pair, lenBytes, ha, hb]

theorem bytesToNat_quad (a b c d : Byte) :
    bytesToNat [a, b, c, d] = ((a.toNat * 256 + b.toNat) * 256 + c.toNat) * 256 + d.toNat := by
  simp only [bytesToNat, List.length_cons, List.length_nil]
  ring

theorem ofNat_bytesToNat_identBytes (id : Ident) : BitVec.ofNat 32 (bytesToNat (identBytes id)) = id := by
  rw [identBytes, bytesToNat_quad, ← BitVec.toNat_inj]
  simp only [BitVec.extractLsb'_toNat, BitVec.toNat_ofNat, Nat.shiftRight_eq_div_pow]
  omega

theorem identBytes_ofNat_bytesToNat {s : List Byte} (h : s.length = 4) :
    identBytes (BitVec.ofNat 32 (bytesToNat s)) = s := by
  match s, h with
  | [a, b, c, d], _ =>
    rw [bytesToNat_quad]
    simp only [identBytes, List.cons.injEq, ← BitVec.toNat_inj, BitVec.extractLsb'_toNat, BitVec.toNat_ofNat,
      Nat.shiftRight_eq_div_pow]
    refine ⟨?_, ?_, ?_, ?_, trivial⟩ <;> omega

/-! ## The two event words that carry data -/

/-- A TX_START word: LEN, then as many bytes as LEN says. -/
theorem decodeTxStart_eq_some_iff {w rest : List Nibble} {i : Instr} :
    decodeTxStart w = some (i, rest) ↔
      ∃ p : List Byte, i = .evTxStart p ∧ p.length ≤ 65535 ∧ w = bytesNibbles (lenBytes p.length ++ p) ++ rest := by
  constructor
  · intro h
    unfold decodeTxStart at h
    split at h
    · cases h
    next len w1 hlen =>
    split at h
    · cases h
    next p w2 hp =>
    cases h
    obtain ⟨hlen2, rfl⟩ := takeBytes_eq_some_iff.1 hlen
    obtain ⟨hplen, rfl⟩ := takeBytes_eq_some_iff.1 hp
    refine ⟨p, rfl, hplen ▸ bytesToNat_le_of_length_two hlen2, ?_⟩
    rw [hplen, lenBytes_bytesToNat hlen2, bytesNibbles_append, List.append_assoc]
  · rintro ⟨p, rfl, hp, rfl⟩
    rw [decodeTxStart, bytesNibbles_append, List.append_assoc, takeBytes_bytesNibbles (lenBytes_length _)]
    simp only [bytesToNat_lenBytes hp, takeBytes_bytesNibbles rfl]

/-- A FRAME_IN word: four bytes of ID, then the frame's eight. -/
theorem decodeFrameIn_eq_some_iff {w rest : List Nibble} {i : Instr} :
    decodeFrameIn w = some (i, rest) ↔
      ∃ id f, i = .evFrameIn id f ∧ w = bytesNibbles (identBytes id ++ f.bytes) ++ rest := by
  constructor
  · intro h
    unfold decodeFrameIn at h
    split at h
    · cases h
    next id w1 hid =>
    split at h
    · cases h
    next f w2 hf =>
    cases h
    obtain ⟨hid4, rfl⟩ := takeBytes_eq_some_iff.1 hid
    obtain ⟨hf8, rfl⟩ := takeBytes_eq_some_iff.1 hf
    refine ⟨_, _, rfl, ?_⟩
    rw [identBytes_ofNat_bytesToNat hid4, Frame.bytes_ofBytes hf8, bytesNibbles_append, List.append_assoc]
  · rintro ⟨id, f, rfl, rfl⟩
    rw [decodeFrameIn, bytesNibbles_append, List.append_assoc, takeBytes_bytesNibbles (identBytes_length _)]
    simp only [takeBytes_bytesNibbles f.bytes_length, ofNat_bytesToNat_identBytes, Frame.ofBytes_bytes]

/-! ## The event port as a whole -/

theorem decode_event_eq_instr_iff {w : List Nibble} {i : Instr} :
    decode (.event w) = .instr i ↔ decodeEvent w = some (i, []) := by
  rw [decode]
  split <;> simp_all

/-- The reserved op codes 8 to 15 are a one followed by their three low bits (R93). -/
theorem one_append_low_bits_of_reserved (op : Nibble) (h : 8 ≤ op.toNat) : 1#1 ++ op.extractLsb' 0 3 = op := by
  revert op; decide

/-- A word with nothing after its last argument is the encoding of the instruction it is read as. -/
theorem encode_of_decodeEvent {w : List Nibble} {i : Instr} (h : decodeEvent w = some (i, [])) :
    encode i = .event w ∧ i.wf = true := by
  match w with
  | [] => cases h
  | op :: w =>
    rw [decodeEvent] at h
    split_ifs at h with h0 h1 h2 h3 h4 h5 h6 h7
    · cases h; exact ⟨by rw [h0]; rfl, rfl⟩
    · obtain ⟨p, rfl, hp, rfl⟩ := decodeTxStart_eq_some_iff.1 h
      exact ⟨by rw [h1, List.append_nil]; rfl, decide_eq_true hp⟩
    · cases h; exact ⟨by rw [h2]; rfl, rfl⟩
    · obtain ⟨id, f, rfl, rfl⟩ := decodeFrameIn_eq_some_iff.1 h
      exact ⟨by rw [h3, List.append_nil]; rfl, rfl⟩
    · cases h; exact ⟨by rw [h4]; rfl, rfl⟩
    · cases h; exact ⟨by rw [h5]; rfl, rfl⟩
    · cases h; exact ⟨by rw [h6]; rfl, rfl⟩
    · cases h; exact ⟨by rw [h7]; rfl, rfl⟩
    · cases h
      have hop : 8 ≤ op.toNat := by bv_omega
      exact ⟨by rw [encode, one_append_low_bits_of_reserved op hop]; rfl, rfl⟩

/-- Settles O7: the readers of the fields fix the nibbles they consume. -/
theorem eventWordsEncodeBack : Obligations.EventWordsEncodeBack :=
  fun _ _ h => encode_of_decodeEvent (decode_event_eq_instr_iff.1 h)

theorem decode_encode_evTxStart {p : List Byte} (h : p.length ≤ 65535) :
    decode (encode (.evTxStart p)) = .instr (.evTxStart p) :=
  decode_event_eq_instr_iff.2 (decodeTxStart_eq_some_iff.2 ⟨p, rfl, h, (List.append_nil _).symm⟩)

theorem decode_encode_evFrameIn (id : Ident) (f : Frame) :
    decode (encode (.evFrameIn id f)) = .instr (.evFrameIn id f) :=
  decode_event_eq_instr_iff.2 (decodeFrameIn_eq_some_iff.2 ⟨id, f, rfl, (List.append_nil _).symm⟩)

theorem decode_encode_evRsv8 (x : BitVec 3) : decode (encode (.evRsv8 x)) = .instr (.evRsv8 x) := by
  revert x; decide

end Sys2Proof
end

section
/-! The frame port (30_encoding R79 to R90), and with it the round trip of every instruction: the row a frame decodes to,
and the operands found again in the frame that encodes them. -/

namespace Sys2Proof

/-! ## The rows that carry data bytes or FC parameters -/

theorem decodeFrame_sf {f : Frame} (ht : hiNibble f.f0 = 0) (hx : (loNibble f.f0).toNat ≤ 7) :
    decodeFrame f = .decSf ((loNibble f.f0).extractLsb' 0 3) (slice 1 (1 + (loNibble f.f0).toNat) f.bytes) := by
  simp [decodeFrame, ht, hx]

theorem decodeFrame_ff {f : Frame} (ht : hiNibble f.f0 = 1) :
    decodeFrame f = .decFf (ffLen f.f0 f.f1) (slice 2 8 f.bytes) := by
  simp [decodeFrame, ht]

theorem decodeFrame_cf {f : Frame} (ht : hiNibble f.f0 = 2) :
    decodeFrame f = .decCf (loNibble f.f0) (slice 1 8 f.bytes) := by
  simp [decodeFrame, ht]

theorem decodeFrame_fcCts {f : Frame} (h : f.f0 = 0x30) : decodeFrame f = .decFcCts f.f1 f.f2 := by
  rw [decodeFrame, h]
  rfl

theorem decodeFrame_fcWait {f : Frame} (h : f.f0 = 0x31) : decodeFrame f = .decFcWait f.f1 f.f2 := by
  rw [decodeFrame, h]
  rfl

theorem decodeFrame_fcOvflw {f : Frame} (h : f.f0 = 0x32) : decodeFrame f = .decFcOvflw f.f1 f.f2 := by
  rw [decodeFrame, h]
  rfl

/-- A frame holds its first byte and its padded data. -/
theorem bytes_ofBytes_cons_pad0 (b : Byte) {d : List Byte} (h : d.length ≤ 7) :
    (Frame.ofBytes (b :: pad0 d 7)).bytes = b :: pad0 d 7 :=
  Frame.bytes_ofBytes (by rw [List.length_cons, pad0_length h])

/-- The data is found again after the first byte, before the padding (R110). -/
theorem slice_one_of_padded (b : Byte) {d : List Byte} (h : d.length ≤ 7) :
    slice 1 (1 + d.length) (Frame.ofBytes (b :: pad0 d 7)).bytes = d := by
  rw [bytes_ofBytes_cons_pad0 b h, slice, Nat.add_sub_cancel_left]
  exact pad0_take d 7

/-- The nibbles and the length bits of the header byte of a SF (R80). -/
theorem sfHeader_nibbles (l : BitVec 3) :
    hiNibble (0#5 ++ l) = 0 ∧ (loNibble (0#5 ++ l)).toNat = l.toNat ∧ (loNibble (0#5 ++ l)).extractLsb' 0 3 = l := by
  revert l; decide

theorem decode_encode_decSf {l : BitVec 3} {d : List Byte} (h : d.length = l.toNat) :
    decode (encode (.decSf l d)) = .instr (.decSf l d) := by
  obtain ⟨hhi, hlo, hl⟩ := sfHeader_nibbles l
  have hle : d.length ≤ 7 := by omega
  have hf := decodeFrame_sf (f := Frame.ofBytes ((0#5 ++ l) :: pad0 d 7)) hhi (by rw [Frame.ofBytes_f0]; omega)
  rw [Frame.ofBytes_f0, hlo, hl, ← h, slice_one_of_padded _ hle] at hf
  exact congrArg Decoded.instr hf

theorem decode_encode_decFf {n : BitVec 12} {d : List Byte} (h : d.length = 6) :
    decode (encode (.decFf n d)) = .instr (.decFf n d) := by
  have hlen : (ffLenLo n :: d).length = 7 := by rw [List.length_cons, h]
  have hf := decodeFrame_ff (f := Frame.ofBytes (byteOf 1 (ffLenHi n) :: pad0 (ffLenLo n :: d) 7)) (hiNibble_byteOf _ _)
  rw [bytes_ofBytes_cons_pad0 _ hlen.le, pad0_full hlen.ge, Frame.ofBytes_f0, Frame.ofBytes_f1, ffLen_of_halves,
    slice_all _ _ _ (by simp [h])] at hf
  rw [encode, frameWord, pad0_full hlen.ge]
  exact congrArg Decoded.instr hf

theorem decode_encode_decCf {sn : Nibble} {d : List Byte} (h : d.length = 7) :
    decode (encode (.decCf sn d)) = .instr (.decCf sn d) := by
  have hf := decodeFrame_cf (f := Frame.ofBytes (byteOf 2 sn :: pad0 d 7)) (hiNibble_byteOf _ _)
  have hd := slice_one_of_padded (byteOf 2 sn) h.le
  rw [h] at hd
  rw [hd, Frame.ofBytes_f0, loNibble_byteOf] at hf
  exact congrArg Decoded.instr hf

theorem decode_encode_decFcCts (bs st : Byte) : decode (encode (.decFcCts bs st)) = .instr (.decFcCts bs st) :=
  congrArg Decoded.instr (decodeFrame_fcCts (Frame.ofBytes_f0 0x30 (pad0 [bs, st] 7)))

theorem decode_encode_decFcWait (bs st : Byte) : decode (encode (.decFcWait bs st)) = .instr (.decFcWait bs st) :=
  congrArg Decoded.instr (decodeFrame_fcWait (Frame.ofBytes_f0 0x31 (pad0 [bs, st] 7)))

theorem decode_encode_decFcOvflw (bs st : Byte) : decode (encode (.decFcOvflw bs st)) = .instr (.decFcOvflw bs st) :=
  congrArg Decoded.instr (decodeFrame_fcOvflw (Frame.ofBytes_f0 0x32 (pad0 [bs, st] 7)))

/-! ## The rows whose operand is the rest of f[0] -/

theorem decode_encode_decSfLenErr (x : BitVec 3) : decode (encode (.decSfLenErr x)) = .instr (.decSfLenErr x) := by
  revert x; decide

theorem decode_encode_decFcRsv4 (x : BitVec 2) : decode (encode (.decFcRsv4 x)) = .instr (.decFcRsv4 x) := by
  revert x; decide

theorem decode_encode_decFcRsv8 (x : BitVec 3) : decode (encode (.decFcRsv8 x)) = .instr (.decFcRsv8 x) := by
  revert x; decide

theorem decode_encode_decRsvType4 (x : BitVec 6) : decode (encode (.decRsvType4 x)) = .instr (.decRsvType4 x) := by
  revert x; decide

theorem decode_encode_decRsvType8 (x : BitVec 7) : decode (encode (.decRsvType8 x)) = .instr (.decRsvType8 x) := by
  revert x; decide

/-- Settles O6: a case for each row of the table. The encode operations stand for the PDU they carry; the rows with
data have their round trip above; the others are fixed by one nibble or byte. -/
theorem decodeOfEncode : Obligations.DecodeOfEncode := by
  intro i h
  cases i with
  | encSf | encFf | encCf | encFcCts | encFcWait | encFcOvflw => rfl
  | decSf l d => exact decode_encode_decSf (of_decide_eq_true h)
  | decSfLenErr x => exact decode_encode_decSfLenErr x
  | decFf n d => exact decode_encode_decFf (of_decide_eq_true h)
  | decCf sn d => exact decode_encode_decCf (of_decide_eq_true h)
  | decFcCts bs st => exact decode_encode_decFcCts bs st
  | decFcWait bs st => exact decode_encode_decFcWait bs st
  | decFcOvflw bs st => exact decode_encode_decFcOvflw bs st
  | decFcRsv3 => rfl
  | decFcRsv4 x => exact decode_encode_decFcRsv4 x
  | decFcRsv8 x => exact decode_encode_decFcRsv8 x
  | decRsvType4 x => exact decode_encode_decRsvType4 x
  | decRsvType8 x => exact decode_encode_decRsvType8 x
  | evTxStart p => exact decode_encode_evTxStart (of_decide_eq_true h)
  | evFrameIn id f => exact decode_encode_evFrameIn id f
  | evTxCancel | evTmoTxFc | evTmoTxStmin | evTmoRxCf | evTmoRxGuard | evRsv0 => rfl
  | evRsv8 x => exact decode_encode_evRsv8 x

/-- Settles O5: the model's decoder run on the spec's words. -/
theorem specWordsDecode : Obligations.SpecWordsDecode := by
  unfold Obligations.SpecWordsDecode
  decide

end Sys2Proof
end

section
/-! The decoder (30_encoding R90, 41_codec_decode R113 to R123): one rule for each row of the table of R90, by the value
of f[0]; and the DEC rows, which run it. -/

namespace Sys2Proof.Machine

/-! ## The decoder by the value of f[0] -/

theorem hiNibble_eq_iff (b : Byte) (t : Nibble) : hiNibble b = t ↔ b.toNat / 16 = t.toNat := by
  rw [← BitVec.toNat_inj, hiNibble_toNat]

theorem codecDecode_sf {f : Frame} (h : f.f0.toNat < 0x08) :
    codecDecode f = .pdu (.sf f.f0.toNat ((f.bytes.drop 1).take f.f0.toNat)) := by
  have hhi : hiNibble f.f0 = 0 := (hiNibble_eq_iff _ 0).2 (by bv_omega)
  have hlo : (loNibble f.f0).toNat = f.f0.toNat := by rw [loNibble_toNat]; omega
  simp only [codecDecode, hhi, decodeSf, hlo, if_true, if_pos (Nat.le_of_lt_succ h), slice, Nat.add_sub_cancel_left]

/-- A length of 8 to 15 in a SF (D6). -/
theorem codecDecode_sfLenErr {f : Frame} (h : 0x08 ≤ f.f0.toNat) (h' : f.f0.toNat < 0x10) :
    codecDecode f = .error .lengthOutOfRange := by
  have hhi : hiNibble f.f0 = 0 := (hiNibble_eq_iff _ 0).2 (by bv_omega)
  have hlo : ¬ (loNibble f.f0).toNat ≤ 7 := by rw [loNibble_toNat]; omega
  simp only [codecDecode, hhi, decodeSf, if_true, if_neg hlo]

theorem codecDecode_ff {f : Frame} (h : 0x10 ≤ f.f0.toNat) (h' : f.f0.toNat < 0x20) :
    codecDecode f =
      .pdu (.ff ((f.f0.toNat - 0x10) * 256 + f.f1.toNat) [f.f2, f.f3, f.f4, f.f5, f.f6, f.f7]) := by
  have hhi : hiNibble f.f0 = 1 := (hiNibble_eq_iff _ 1).2 (by bv_omega)
  have hlo : f.f0.toNat % 16 = f.f0.toNat - 0x10 := by omega
  rw [codecDecode, hhi, ← hlo, ← ffLen_toNat]
  rfl

theorem codecDecode_cf {f : Frame} (h : 0x20 ≤ f.f0.toNat) (h' : f.f0.toNat < 0x30) :
    codecDecode f = .pdu (.cf (f.f0.toNat - 0x20) [f.f1, f.f2, f.f3, f.f4, f.f5, f.f6, f.f7]) := by
  have hhi : hiNibble f.f0 = 2 := (hiNibble_eq_iff _ 2).2 (by bv_omega)
  have hlo : (loNibble f.f0).toNat = f.f0.toNat - 0x20 := by rw [loNibble_toNat]; omega
  rw [codecDecode, hhi, ← hlo]
  rfl

theorem codecDecode_fcCts {f : Frame} (h : f.f0 = 0x30) : codecDecode f = .pdu (.fc .cts f.f1 f.f2) := by
  rw [codecDecode, decodeFc, h]
  rfl

theorem codecDecode_fcWait {f : Frame} (h : f.f0 = 0x31) : codecDecode f = .pdu (.fc .wait f.f1 f.f2) := by
  rw [codecDecode, decodeFc, h]
  rfl

theorem codecDecode_fcOvflw {f : Frame} (h : f.f0 = 0x32) : codecDecode f = .pdu (.fc .ovflw f.f1 f.f2) := by
  rw [codecDecode, decodeFc, h]
  rfl

/-- A reserved flow status (D5) or a reserved type (R114). -/
theorem codecDecode_malformed {f : Frame} (h : 0x33 ≤ f.f0.toNat) : codecDecode f = .error .malformedHeader := by
  have hhi := hiNibble_toNat f.f0
  have hlo := loNibble_toNat f.f0
  rw [codecDecode, if_neg (by bv_omega), if_neg (by bv_omega), if_neg (by bv_omega)]
  split
  · rw [decodeFc, if_neg (by bv_omega), if_neg (by bv_omega), if_neg (by bv_omega)]
  · rfl

/-- Settles O8: the rules above in the order of the table. -/
theorem frameDecodesByFirstByte : Obligations.FrameDecodesByFirstByte := by
  intro f
  split_ifs with hsf hlen hff hcf hcts hwait hovflw
  · exact codecDecode_sf hsf
  · exact codecDecode_sfLenErr (Nat.le_of_not_lt hsf) hlen
  · exact codecDecode_ff (Nat.le_of_not_lt hlen) hff
  · exact codecDecode_cf (Nat.le_of_not_lt hff) hcf
  · exact codecDecode_fcCts (BitVec.eq_of_toNat_eq hcts)
  · exact codecDecode_fcWait (BitVec.eq_of_toNat_eq hwait)
  · exact codecDecode_fcOvflw (BitVec.eq_of_toNat_eq hovflw)
  · exact codecDecode_malformed (by omega)

/-! ## The DEC rows run the decoder -/

/-- The three length bits of a SF's header byte hold its whole length (R80). -/
theorem sfLength_toNat {x : Nibble} (h : x.toNat ≤ 7) : (x.extractLsb' 0 3).toNat = x.toNat := by
  rw [BitVec.extractLsb'_toNat, Nat.shiftRight_zero]
  omega

/-- The row a frame decodes to returns the decoder's answer: `decodeFrame` and `codecDecode` test the same nibbles, and
where `decodeFrame` has several rows the decoder has one answer (R96, R113). -/
theorem exec_decodeFrame (f : Frame) (s : State) : exec (decodeFrame f) s = decodeReturn (codecDecode f) s := by
  simp only [decodeFrame, codecDecode]
  split
  · simp only [decodeSf]
    split
    next hx => exact congrArg (fun l => decodeReturn (.pdu (.sf l _)) s) (sfLength_toNat hx)
    · rfl
  split
  · rfl
  split
  · rfl
  split
  · simp only [decodeFc]
    split_ifs <;> rfl
  · split <;> rfl

/-- Settles O9: a decode request adds its one result, the decoder's answer. -/
theorem decRowsAgreeWithDecoder : Obligations.DecRowsAgreeWithDecoder :=
  fun f s => exec_decodeFrame f s

end Sys2Proof.Machine
end

section
/-! The encoder (40_codec_encode R105 to R111): one rule for each PDU, the bytes of its frame; the ENC rows, which run it;
and what the decoder finds in a frame that the encoder made. -/

namespace Sys2Proof.Machine

/-! ## The encoder's domain -/

theorem sf_wf_iff {l : Nat} {d : List Byte} : (Pdu.sf l d).wf = true ↔ l ≤ 7 ∧ d.length = l := by
  simp [Pdu.wf]

theorem ff_wf_iff {n : Nat} {d : List Byte} : (Pdu.ff n d).wf = true ↔ n ≤ 4095 ∧ d.length ≤ 6 := by
  simp [Pdu.wf]

theorem cf_wf_iff {n : Nat} {d : List Byte} : (Pdu.cf n d).wf = true ↔ d.length ≤ 7 := by
  simp [Pdu.wf]

theorem fc_wf (fs : FlowStatus) (bs st : Byte) : (Pdu.fc fs bs st).wf = true := rfl

/-! ## The ENC rows run the encoder -/

/-- The row that stands for a PDU is a request to encode it (R106 to R109). -/
theorem exec_decodePdu (p : Pdu) (s : State) : exec (decodePdu p) s = encodeRequest p s := by
  cases p with
  | sf | ff | cf => rfl
  | fc fs => cases fs <;> rfl

theorem exec_decodePdu_of_wf {p : Pdu} (h : p.wf = true) (s : State) :
    exec (decodePdu p) s = .next { s with codec := s.codec ++ [.encoded (encodePdu p)] } := by
  rw [exec_decodePdu, encodeRequest_eq, if_pos h]
  rfl

theorem exec_decodePdu_of_not_wf {p : Pdu} (h : ¬ p.wf = true) (s : State) :
    exec (decodePdu p) s = .refused .pduOutsideDomain := by
  rw [exec_decodePdu, encodeRequest_eq, if_neg h]

theorem exec_decodePdu_completes_or_refuses (p : Pdu) (s : State) :
    (p.wf = true → ∃ t, exec (decodePdu p) s = .next t) ∧
    (¬ p.wf = true → exec (decodePdu p) s = .refused .pduOutsideDomain) :=
  ⟨fun h => ⟨_, exec_decodePdu_of_wf h s⟩, fun h => exec_decodePdu_of_not_wf h s⟩

/-- Settles O21: a row completes or is refused as its PDU is in the domain or not. -/
theorem encoderDomain : Obligations.EncoderDomain := by
  refine ⟨fun l d s => ?_, fun n d s => ?_, fun n d s => ?_, fun bs st s => ⟨?_, ?_, ?_⟩⟩
  · rw [← sf_wf_iff]; exact exec_decodePdu_completes_or_refuses (.sf l d) s
  · rw [← ff_wf_iff]; exact exec_decodePdu_completes_or_refuses (.ff n d) s
  · rw [← cf_wf_iff (n := n)]; exact exec_decodePdu_completes_or_refuses (.cf n d) s
  · exact ⟨_, exec_decodePdu_of_wf (fc_wf .cts bs st) s⟩
  · exact ⟨_, exec_decodePdu_of_wf (fc_wf .wait bs st) s⟩
  · exact ⟨_, exec_decodePdu_of_wf (fc_wf .ovflw bs st) s⟩

/-! ## The bytes of an encoded PDU -/

/-- A header byte as a number: the type in the high nibble (R85 to R87). -/
theorem byteOf_eq_ofNat (h l : Nibble) : byteOf h l = BitVec.ofNat 8 (h.toNat * 16 + l.toNat) := by
  rw [← byteOf_toNat, BitVec.ofNat_toNat, BitVec.setWidth_eq]

theorem encodePdu_sf_bytes {l : Nat} {d : List Byte} (hl : l ≤ 7) (hd : d.length ≤ 7) :
    (encodePdu (.sf l d)).bytes = BitVec.ofNat 8 l :: pad0 d 7 := by
  have hheader : byteOf 0 (BitVec.ofNat 4 l) = BitVec.ofNat 8 l := by
    rw [byteOf_eq_ofNat, BitVec.toNat_ofNat, Nat.mod_eq_of_lt (by omega)]
    simp
  rw [← hheader]
  exact bytes_ofBytes_cons_pad0 _ hd

/-- The length is split big-endian over the first two bytes (R107). -/
theorem encodePdu_ff_bytes {n : Nat} {d : List Byte} (hn : n ≤ 4095) (hd : d.length ≤ 6) :
    (encodePdu (.ff n d)).bytes = BitVec.ofNat 8 (0x10 + n / 256) :: BitVec.ofNat 8 (n % 256) :: pad0 d 6 := by
  have hlen : (BitVec.ofNat 12 n).toNat = n := by rw [BitVec.toNat_ofNat, Nat.mod_eq_of_lt (by omega)]
  have hheader : byteOf 1 (ffLenHi (BitVec.ofNat 12 n)) = BitVec.ofNat 8 (0x10 + n / 256) := by
    rw [byteOf_eq_ofNat, ffLenHi_toNat, hlen]
    rfl
  have hlow : ffLenLo (BitVec.ofNat 12 n) = BitVec.ofNat 8 (n % 256) := by
    rw [← hlen, ← ffLenLo_toNat, hlen, BitVec.ofNat_toNat, BitVec.setWidth_eq]
  rw [← hheader, ← hlow]
  exact Frame.bytes_ofBytes (by rw [List.length_cons, List.length_cons, pad0_length hd])

theorem encodePdu_cf_bytes (n : Nat) {d : List Byte} (hd : d.length ≤ 7) :
    (encodePdu (.cf n d)).bytes = BitVec.ofNat 8 (0x20 + n % 16) :: pad0 d 7 := by
  have hheader : byteOf 2 (BitVec.ofNat 4 n) = BitVec.ofNat 8 (0x20 + n % 16) := by
    rw [byteOf_eq_ofNat, BitVec.toNat_ofNat]
    rfl
  rw [← hheader]
  exact bytes_ofBytes_cons_pad0 _ hd

/-- Settles O17: the row encodes its PDU, whose frame is as R106 says, and is refused outside the domain. -/
theorem encSingleFrame : Obligations.EncSingleFrame := by
  intro l d s
  rw [← sf_wf_iff]
  refine ⟨fun hwf => ⟨_, ?_, exec_decodePdu_of_wf hwf s⟩, fun hwf => exec_decodePdu_of_not_wf hwf s⟩
  obtain ⟨hl, rfl⟩ := sf_wf_iff.1 hwf
  exact encodePdu_sf_bytes hl hl

/-- Settles O18: the row encodes its PDU, whose frame carries the length in two bytes as R107 says. -/
theorem encFirstFrame : Obligations.EncFirstFrame :=
  fun _ _ s hn hd => ⟨_, encodePdu_ff_bytes hn hd, exec_decodePdu_of_wf (ff_wf_iff.2 ⟨hn, hd⟩) s⟩

/-- Settles O19: the row encodes its PDU, whose frame carries the number mod 16 as R108 says. -/
theorem encConsecutiveFrame : Obligations.EncConsecutiveFrame :=
  fun n _ s hd => ⟨_, encodePdu_cf_bytes n hd, exec_decodePdu_of_wf (cf_wf_iff.2 hd) s⟩

/-- Settles O20: no operand is outside the domain, and the frames are the ones `encodePdu` computes. -/
theorem encFlowControl : Obligations.EncFlowControl :=
  fun bs st s => ⟨exec_decodePdu_of_wf (fc_wf .cts bs st) s, exec_decodePdu_of_wf (fc_wf .wait bs st) s,
    exec_decodePdu_of_wf (fc_wf .ovflw bs st) s⟩

/-! ## Decoding what was encoded -/

/-- The first byte and the rest of a frame whose bytes are known. -/
theorem f0_eq_and_data_eq_of_bytes {f : Frame} {b : Byte} {rest : List Byte} (h : f.bytes = b :: rest) :
    f.f0 = b ∧ [f.f1, f.f2, f.f3, f.f4, f.f5, f.f6, f.f7] = rest :=
  List.cons.inj h

theorem codecDecode_encodePdu_sf {l : Nat} {d : List Byte} (hl : l ≤ 7) (hd : d.length = l) :
    codecDecode (encodePdu (.sf l d)) = .pdu (.sf l d) := by
  have hbytes := encodePdu_sf_bytes hl (hd.trans_le hl)
  have hf0 : (encodePdu (.sf l d)).f0.toNat = l := by
    rw [(f0_eq_and_data_eq_of_bytes hbytes).1, BitVec.toNat_ofNat]
    omega
  rw [codecDecode_sf (by omega), hf0, hbytes, List.drop_one, List.tail_cons, ← hd, pad0_take]

/-- The decoder returns all six data bytes of a FF, with the padding (R117). -/
theorem codecDecode_encodePdu_ff {n : Nat} {d : List Byte} (hn : n ≤ 4095) (hd : d.length ≤ 6) :
    codecDecode (encodePdu (.ff n d)) = .pdu (.ff n (pad0 d 6)) := by
  obtain ⟨hf0, hrest⟩ := f0_eq_and_data_eq_of_bytes (encodePdu_ff_bytes hn hd)
  obtain ⟨hf1, hdata⟩ := List.cons.inj hrest
  have h0 : (encodePdu (.ff n d)).f0.toNat = 0x10 + n / 256 := by rw [hf0, BitVec.toNat_ofNat]; omega
  have h1 : (encodePdu (.ff n d)).f1.toNat = n % 256 := by rw [hf1, BitVec.toNat_ofNat]; omega
  have hlen : (0x10 + n / 256 - 0x10) * 256 + n % 256 = n := by omega
  rw [codecDecode_ff (by omega) (by omega), hdata, h0, h1, hlen]

/-- The decoder returns all seven data bytes of a CF, with the padding, and the number mod 16 (R118). -/
theorem codecDecode_encodePdu_cf (n : Nat) {d : List Byte} (hd : d.length ≤ 7) :
    codecDecode (encodePdu (.cf n d)) = .pdu (.cf (n % 16) (pad0 d 7)) := by
  obtain ⟨hf0, hdata⟩ := f0_eq_and_data_eq_of_bytes (encodePdu_cf_bytes n hd)
  have h0 : (encodePdu (.cf n d)).f0.toNat = 0x20 + n % 16 := by rw [hf0, BitVec.toNat_ofNat]; omega
  rw [codecDecode_cf (by omega) (by omega), hdata, h0, Nat.add_sub_cancel_left]

theorem codecDecode_encodePdu_fc (fs : FlowStatus) (bs st : Byte) :
    codecDecode (encodePdu (.fc fs bs st)) = .pdu (.fc fs bs st) := by
  cases fs with
  | cts => exact codecDecode_fcCts rfl
  | wait => exact codecDecode_fcWait rfl
  | ovflw => exact codecDecode_fcOvflw rfl

/-- Settles O10: full data has no padding, and a number up to 15 is its own remainder. -/
theorem codecRoundTrip : Obligations.CodecRoundTrip := by
  refine ⟨fun l d => codecDecode_encodePdu_sf, fun n d hn hd => ?_, fun n d hn hd => ?_, codecDecode_encodePdu_fc⟩
  · rw [codecDecode_encodePdu_ff hn hd.le, pad0_full hd.ge]
  · rw [codecDecode_encodePdu_cf n hd.le, pad0_full hd.ge, Nat.mod_eq_of_lt (Nat.lt_succ_of_le hn)]

/-- What the encoder makes inside its domain decodes (R112). -/
theorem codecDecode_encodePdu_ne_error {p : Pdu} (h : p.wf = true) (e : FrameError) :
    codecDecode (encodePdu p) ≠ .error e := by
  cases p with
  | sf l d => obtain ⟨hl, hd⟩ := sf_wf_iff.1 h; rw [codecDecode_encodePdu_sf hl hd]; nofun
  | ff n d => obtain ⟨hn, hd⟩ := ff_wf_iff.1 h; rw [codecDecode_encodePdu_ff hn hd]; nofun
  | cf n d => rw [codecDecode_encodePdu_cf n (cf_wf_iff.1 h)]; nofun
  | fc fs bs st => rw [codecDecode_encodePdu_fc]; nofun

end Sys2Proof.Machine
end

section
/-! The frames of a step (40_codec_encode R112): each carries CFG.TX_ID and encodes a PDU of the encoder's domain. One case
analysis over `Move`. -/

namespace Sys2Proof.Machine

open Sys2Proof.Safety

/-- Every frame put out from s to t carries CFG.TX_ID and encodes a PDU of the domain. -/
def SendsEncoded (s t : State) : Prop :=
  ∀ o ∈ (newOut s t).filter isFrame, ∃ p r, Pdu.wf p = true ∧ o = .frame s.cfg.txId (encodePdu p) r

theorem sendsEncoded_of_silent {s t : State} {os : List Output} (ho : t.out = s.out ++ os)
    (hf : os.filter isFrame = []) : SendsEncoded s t := by
  rw [SendsEncoded, newOut_eq ho, hf]
  nofun

theorem sendsEncoded_of_frame {s t : State} {os : List Output} {p : Pdu} {r : ChannelResult} (hp : p.wf = true)
    (ho : t.out = s.out ++ os) (hf : os.filter isFrame = [.frame s.cfg.txId (encodePdu p) r]) : SendsEncoded s t := by
  rw [SendsEncoded, newOut_eq ho, hf]
  exact fun o hmem => ⟨p, r, hp, List.mem_singleton.1 hmem⟩

/-- EmitCF sends a CF of at most 7 bytes in all four outcomes (R132). -/
theorem emitCf_sendsEncoded (s : State) : SendsEncoded s (emitCf s) := by
  have hwf : (Pdu.cf s.tx.sn.toNat (s.tx.remaining.take 7)).wf = true := cf_wf_iff.2 (List.length_take_le _ _)
  rcases emitCf_cases s with ⟨_, h⟩ | ⟨_, _, h⟩ | ⟨_, _, _, h⟩ | ⟨_, _, _, h⟩ <;> rw [h]
  · exact sendsEncoded_of_frame hwf (List.append_assoc _ _ _) rfl
  · exact sendsEncoded_of_frame hwf (List.append_assoc _ _ _) rfl
  · exact sendsEncoded_of_frame hwf (channelSend_out _ _ s) rfl
  · exact sendsEncoded_of_frame hwf (channelSend_out _ _ s) rfl

/-- The FF of a payload that FF_DL can hold is in the domain (R131). -/
theorem firstFrame_wf {p : List Byte} (h : p.length ≤ 4095) : (Pdu.ff p.length (p.take 6)).wf = true :=
  ff_wf_iff.2 ⟨h, List.length_take_le _ _⟩

/-- Every move sends frames of the encoder only: a SF, a FF, a CF or a Flow Control, or none. -/
theorem Move.sendsEncoded {s t : State} (m : Move s t) : SendsEncoded s t := by
  cases m with
  | stay | codec | wait | strayTxFc | strayTxStmin | strayRxCf | cfBlock | cfNext =>
    exact sendsEncoded_of_silent (List.append_nil _).symm rfl
  | rejected | cancel | ovflw | fcTimeout | frameError | sfIdle | sfAwait | cfMismatch | cfTimeout =>
    exact sendsEncoded_of_silent rfl rfl
  | cfComplete d => exact sendsEncoded_of_silent (congrArg State.out (complete_eq (cfAppended d s))) rfl
  | single p _ hl =>
    exact sendsEncoded_of_frame (sf_wf_iff.2 ⟨hl, rfl⟩)
      ((List.append_assoc _ _ _).trans (List.append_assoc _ _ _)) rfl
  | firstErr p _ _ hl =>
    exact sendsEncoded_of_frame (firstFrame_wf hl) ((List.append_assoc _ _ _).trans (List.append_assoc _ _ _)) rfl
  | firstOk p _ _ hl => exact sendsEncoded_of_frame (firstFrame_wf hl) (List.append_assoc _ _ _) rfl
  | cts bs st => exact emitCf_sendsEncoded (ctsRecorded bs st s)
  | stmin => exact emitCf_sendsEncoded (disarm .txStmin s)
  | ffAccept | guard => exact sendsEncoded_of_frame (fc_wf .cts s.cfg.bs s.cfg.stmin) rfl rfl
  | ffOver => exact sendsEncoded_of_frame (fc_wf .ovflw s.cfg.bs s.cfg.stmin) (List.append_assoc _ _ _) rfl

/-- Settles O52: a waiting block and the reset signal send nothing, every move sends frames of the encoder, and those
decode. -/
theorem sentFramesAreWellFormed : Obligations.SentFramesAreWellFormed := by
  intro s t id f r h hmem
  have hsends : SendsEncoded s t := by
    rcases step_move h with ⟨_, rfl⟩ | ⟨xs, _, rfl⟩ | ⟨w, xs, _, m⟩
    · exact Move.stay.sendsEncoded
    · exact sendsEncoded_of_silent (List.append_nil _).symm rfl
    · exact m.sendsEncoded
  obtain ⟨p, _, hp, heq⟩ := hsends _ (List.mem_filter.2 ⟨hmem, rfl⟩)
  obtain ⟨rfl, rfl, _⟩ := Output.frame.inj heq
  exact ⟨rfl, ⟨p, hp, rfl⟩, codecDecode_encodePdu_ne_error hp⟩

end Sys2Proof.Machine
end

section
/-! The codec's DEC rows as instructions (41_codec_decode R114 to R126): what each row answers to its request, the row
that each value of f[0] has in the table of 30_encoding R90, and the STmin duration of R124. -/

namespace Sys2Proof.Machine

/-! ## What each DEC row answers -/

/-- The answer to a decode request changes nothing but the list of codec results (R126). -/
theorem decodeReturn_eq (r : DecodeResult) (s : State) :
    decodeReturn r s = .next { s with codec := s.codec ++ [.decoded r] } := rfl

theorem exec_decSf (l : BitVec 3) (d : List Byte) (s : State) :
    exec (.decSf l d) s = decodeReturn (.pdu (.sf l.toNat d)) s := rfl
theorem exec_decSfLenErr (x : BitVec 3) (s : State) :
    exec (.decSfLenErr x) s = decodeReturn (.error .lengthOutOfRange) s := rfl
theorem exec_decFf (n : BitVec 12) (d : List Byte) (s : State) :
    exec (.decFf n d) s = decodeReturn (.pdu (.ff n.toNat d)) s := rfl
theorem exec_decCf (sn : Nibble) (d : List Byte) (s : State) :
    exec (.decCf sn d) s = decodeReturn (.pdu (.cf sn.toNat d)) s := rfl
theorem exec_decFcCts (bs st : Byte) (s : State) :
    exec (.decFcCts bs st) s = decodeReturn (.pdu (.fc .cts bs st)) s := rfl
theorem exec_decFcWait (bs st : Byte) (s : State) :
    exec (.decFcWait bs st) s = decodeReturn (.pdu (.fc .wait bs st)) s := rfl
theorem exec_decFcOvflw (bs st : Byte) (s : State) :
    exec (.decFcOvflw bs st) s = decodeReturn (.pdu (.fc .ovflw bs st)) s := rfl
theorem exec_decFcRsv3 (s : State) : exec .decFcRsv3 s = decodeReturn (.error .malformedHeader) s := rfl
theorem exec_decFcRsv4 (x : BitVec 2) (s : State) :
    exec (.decFcRsv4 x) s = decodeReturn (.error .malformedHeader) s := rfl
theorem exec_decFcRsv8 (x : BitVec 3) (s : State) :
    exec (.decFcRsv8 x) s = decodeReturn (.error .malformedHeader) s := rfl
theorem exec_decRsvType4 (x : BitVec 6) (s : State) :
    exec (.decRsvType4 x) s = decodeReturn (.error .malformedHeader) s := rfl
theorem exec_decRsvType8 (x : BitVec 7) (s : State) :
    exec (.decRsvType8 x) s = decodeReturn (.error .malformedHeader) s := rfl

/-! ## The codec has no state -/

/-- A well-formed codec instruction encodes a PDU of the encoder's domain or is a decode request with a fixed answer. -/
theorem isCodec_cases {i : Instr} (hc : Safety.isCodec i = true) (hwf : i.wf = true) :
    (∃ p : Pdu, p.wf = true ∧ i = decodePdu p) ∨ ∃ r, ∀ s, exec i s = decodeReturn r s := by
  cases i with
  | encSf l d => exact .inl ⟨.sf l d, hwf, rfl⟩
  | encFf n d => exact .inl ⟨.ff n d, hwf, rfl⟩
  | encCf n d => exact .inl ⟨.cf n d, hwf, rfl⟩
  | encFcCts bs st => exact .inl ⟨.fc .cts bs st, fc_wf _ _ _, rfl⟩
  | encFcWait bs st => exact .inl ⟨.fc .wait bs st, fc_wf _ _ _, rfl⟩
  | encFcOvflw bs st => exact .inl ⟨.fc .ovflw bs st, fc_wf _ _ _, rfl⟩
  | decSf l d => exact .inr ⟨_, exec_decSf l d⟩
  | decSfLenErr x => exact .inr ⟨_, exec_decSfLenErr x⟩
  | decFf n d => exact .inr ⟨_, exec_decFf n d⟩
  | decCf sn d => exact .inr ⟨_, exec_decCf sn d⟩
  | decFcCts bs st => exact .inr ⟨_, exec_decFcCts bs st⟩
  | decFcWait bs st => exact .inr ⟨_, exec_decFcWait bs st⟩
  | decFcOvflw bs st => exact .inr ⟨_, exec_decFcOvflw bs st⟩
  | decFcRsv3 => exact .inr ⟨_, exec_decFcRsv3⟩
  | decFcRsv4 x => exact .inr ⟨_, exec_decFcRsv4 x⟩
  | decFcRsv8 x => exact .inr ⟨_, exec_decFcRsv8 x⟩
  | decRsvType4 x => exact .inr ⟨_, exec_decRsvType4 x⟩
  | decRsvType8 x => exact .inr ⟨_, exec_decRsvType8 x⟩
  | evTxStart | evTxCancel | evFrameIn | evTmoTxFc | evTmoTxStmin | evTmoRxCf | evTmoRxGuard | evRsv0 | evRsv8 =>
    nomatch hc

/-- Settles O47: an encode request adds its PDU's frame, which is chosen before the state is, and a decode request adds
its fixed answer. -/
theorem codecHasNoState : Obligations.CodecHasNoState := by
  intro i hc hwf
  rcases isCodec_cases hc hwf with ⟨p, hp, rfl⟩ | ⟨r, hr⟩
  · exact ⟨.encoded (encodePdu p), exec_decodePdu_of_wf hp⟩
  · exact ⟨.decoded r, fun s => (hr s).trans (decodeReturn_eq r s)⟩

/-! ## The row of each value of f[0] -/

/-- The low bits of the low nibble are those of the byte. -/
theorem lowBits_loNibble_toNat (b : Byte) {k : Nat} (hk : k ≤ 4) :
    ((loNibble b).extractLsb' 0 k).toNat = b.toNat % 2 ^ k := by
  rw [BitVec.extractLsb'_toNat, Nat.shiftRight_zero, loNibble_toNat,
    Nat.mod_mod_of_dvd _ (Nat.pow_dvd_pow 2 hk)]

theorem decodeFrame_sf_of_lt {f : Frame} (h : f.f0.toNat < 0x08) :
    decodeFrame f = .decSf ((loNibble f.f0).extractLsb' 0 3) ((f.bytes.drop 1).take f.f0.toNat) := by
  have hlo : (loNibble f.f0).toNat = f.f0.toNat := by rw [loNibble_toNat]; omega
  rw [decodeFrame_sf ((hiNibble_eq_iff _ 0).2 (by bv_omega)) (by omega), hlo, slice, Nat.add_sub_cancel_left]

theorem decodeFrame_sfLenErr {f : Frame} (h : 0x08 ≤ f.f0.toNat) (h' : f.f0.toNat < 0x10) :
    decodeFrame f = .decSfLenErr ((loNibble f.f0).extractLsb' 0 3) := by
  have hhi : hiNibble f.f0 = 0 := (hiNibble_eq_iff _ 0).2 (by bv_omega)
  have hlo := loNibble_toNat f.f0
  rw [decodeFrame, if_pos hhi, if_neg (by omega)]

theorem decodeFrame_ff_of_range {f : Frame} (h : 0x10 ≤ f.f0.toNat) (h' : f.f0.toNat < 0x20) :
    decodeFrame f = .decFf (ffLen f.f0 f.f1) [f.f2, f.f3, f.f4, f.f5, f.f6, f.f7] :=
  decodeFrame_ff ((hiNibble_eq_iff _ 1).2 (by bv_omega))

theorem decodeFrame_cf_of_range {f : Frame} (h : 0x20 ≤ f.f0.toNat) (h' : f.f0.toNat < 0x30) :
    decodeFrame f = .decCf (loNibble f.f0) [f.f1, f.f2, f.f3, f.f4, f.f5, f.f6, f.f7] :=
  decodeFrame_cf ((hiNibble_eq_iff _ 2).2 (by bv_omega))

/-- The three rows of a reserved flow status, by the low nibble (R122). -/
theorem decodeFrame_fcRsv {f : Frame} (h : 0x33 ≤ f.f0.toNat) (h' : f.f0.toNat < 0x40) :
    decodeFrame f =
      if f.f0.toNat = 0x33 then .decFcRsv3
      else if f.f0.toNat < 0x38 then .decFcRsv4 ((loNibble f.f0).extractLsb' 0 2)
      else .decFcRsv8 ((loNibble f.f0).extractLsb' 0 3) := by
  have hhi : hiNibble f.f0 = 3 := (hiNibble_eq_iff _ 3).2 (by bv_omega)
  have hlo := loNibble_toNat f.f0
  have h3 : loNibble f.f0 = 3 ↔ f.f0.toNat = 0x33 := by bv_omega
  have h8 : (loNibble f.f0).toNat < 8 ↔ f.f0.toNat < 0x38 := by omega
  rw [decodeFrame, hhi, if_neg (by decide), if_neg (by decide), if_neg (by decide), if_pos rfl,
    if_neg (by bv_omega), if_neg (by bv_omega), if_neg (by bv_omega)]
  simp only [h3, h8]

/-- The two rows of a reserved type, by the top bit of f[0] (R114). -/
theorem decodeFrame_rsvType {f : Frame} (h : 0x40 ≤ f.f0.toNat) :
    decodeFrame f =
      if f.f0.toNat < 0x80 then .decRsvType4 (f.f0.extractLsb' 0 6) else .decRsvType8 (f.f0.extractLsb' 0 7) := by
  have hhi := hiNibble_toNat f.f0
  have h8 : (hiNibble f.f0).toNat < 8 ↔ f.f0.toNat < 0x80 := by omega
  rw [decodeFrame, if_neg (by bv_omega), if_neg (by bv_omega), if_neg (by bv_omega), if_neg (by bv_omega)]
  simp only [h8]

/-! ## The DEC rows -/

/-- Settles O11: the length bits hold all of f[0]. -/
theorem decSingleFrame : Obligations.DecSingleFrame :=
  ⟨exec_decSf, fun f h =>
    ⟨_, by rw [lowBits_loNibble_toNat _ (by decide)]; omega,
      congrArg Decoded.instr (decodeFrame_sf_of_lt (Nat.lt_succ_of_le h))⟩⟩

/-- Settles O12: FF_DL is big-endian, and f[0][3:0] is what f[0] has above 0x10. -/
theorem decFirstFrame : Obligations.DecFirstFrame :=
  ⟨exec_decFf, fun f h h' =>
    ⟨_, by rw [ffLen_toNat]; omega, congrArg Decoded.instr (decodeFrame_ff_of_range h (Nat.lt_succ_of_le h'))⟩⟩

/-- Settles O13: f[0][3:0] is what f[0] has above 0x20. -/
theorem decConsecutiveFrame : Obligations.DecConsecutiveFrame :=
  ⟨exec_decCf, fun f h h' =>
    ⟨_, by rw [loNibble_toNat]; omega, congrArg Decoded.instr (decodeFrame_cf_of_range h (Nat.lt_succ_of_le h'))⟩⟩

/-- Settles O14: one value of f[0] for each row. -/
theorem decFlowControl : Obligations.DecFlowControl :=
  ⟨fun bs st s => ⟨exec_decFcCts bs st s, exec_decFcWait bs st s, exec_decFcOvflw bs st s⟩,
    fun _ => ⟨fun h => congrArg Decoded.instr (decodeFrame_fcCts h),
      fun h => congrArg Decoded.instr (decodeFrame_fcWait h),
      fun h => congrArg Decoded.instr (decodeFrame_fcOvflw h)⟩⟩

/-- Settles O15: the answers of the four rows, then the range of each, whose operand is what f[0] has above it. -/
theorem decReservedLengthOrStatus : Obligations.DecReservedLengthOrStatus := by
  refine ⟨exec_decSfLenErr, exec_decFcRsv3, exec_decFcRsv4, exec_decFcRsv8, fun f h h' => ?_, fun f h => ?_,
    fun f h h' => ?_, fun f h h' => ?_⟩
  · refine ⟨_, ?_, congrArg Decoded.instr (decodeFrame_sfLenErr h (Nat.lt_succ_of_le h'))⟩
    rw [lowBits_loNibble_toNat _ (by decide)]; omega
  · have h3 : f.f0.toNat = 0x33 := congrArg BitVec.toNat h
    rw [decode, decodeFrame_fcRsv h3.ge (by omega), if_pos h3]
  · refine ⟨(loNibble f.f0).extractLsb' 0 2, ?_, ?_⟩
    · rw [lowBits_loNibble_toNat _ (by decide)]; omega
    · rw [decode, decodeFrame_fcRsv (by omega) (by omega), if_neg (by omega), if_pos (by omega)]
  · refine ⟨(loNibble f.f0).extractLsb' 0 3, ?_, ?_⟩
    · rw [lowBits_loNibble_toNat _ (by decide)]; omega
    · rw [decode, decodeFrame_fcRsv (by omega) (by omega), if_neg (by omega), if_neg (by omega)]

/-- Settles O16: the answers of the two rows, then the range of each, whose operand is what f[0] has above it. -/
theorem decReservedType : Obligations.DecReservedType := by
  refine ⟨exec_decRsvType4, exec_decRsvType8, fun f h h' => ⟨f.f0.extractLsb' 0 6, ?_, ?_⟩,
    fun f h => ⟨f.f0.extractLsb' 0 7, ?_, ?_⟩⟩
  · rw [BitVec.extractLsb'_toNat, Nat.shiftRight_zero]; omega
  · rw [decode, decodeFrame_rsvType h, if_pos (Nat.lt_succ_of_le h')]
  · rw [BitVec.extractLsb'_toNat, Nat.shiftRight_zero]; omega
  · rw [decode, decodeFrame_rsvType (by omega), if_neg (Nat.not_lt_of_le h)]

/-! ## The STmin pause -/

theorem timerDuration_txStmin (s : State) : timerDuration .txStmin s = stminDuration s.tx.stmin := rfl

theorem stminDuration_milliseconds {st : Byte} (h : st.toNat ≤ 0x7F) : stminDuration st = st.toNat * 1000 :=
  if_pos h

theorem stminDuration_microseconds {st : Byte} (h : 0xF1 ≤ st.toNat) (h' : st.toNat ≤ 0xF9) :
    stminDuration st = (st.toNat - 0xF0) * 100 := by
  rw [stminDuration, if_neg (by omega), if_pos ⟨h, h'⟩]

/-- A reserved value is taken as the longest pause (D8). -/
theorem stminDuration_reserved {st : Byte} (h : (0x80 ≤ st.toNat ∧ st.toNat ≤ 0xF0) ∨ 0xFA ≤ st.toNat) :
    stminDuration st = 127000 := by
  rw [stminDuration, if_neg (by omega), if_neg (by omega)]

/-- Settles O57: the three ranges of the raw byte. -/
theorem stminPauseDuration : Obligations.StminPauseDuration := by
  intro s
  rw [timerDuration_txStmin]
  exact ⟨stminDuration_milliseconds, stminDuration_microseconds, stminDuration_reserved⟩

end Sys2Proof.Machine
end

section
/-! The Sender's events one by one (42_sender R128 to R141): the procedures they share, each as one record update, and then
what each event does to every field of the state. -/

namespace Sys2Proof.Machine

open Sys2Proof.Safety

/-! ## EmitCF -/

/-- The Sender's registers after EmitCF (R132): the channel failed, the payload is exhausted, the block is full, or the
pause begins. -/
def txAfterCf (s : State) : Tx :=
  if s.answer = .err then
    { s.tx with fcArmed := false, stminArmed := false, remaining := [], state := .idle }
  else if s.tx.remaining.length ≤ 7 then
    { s.tx with remaining := [], sn := s.tx.sn + 1, fsib := s.tx.fsib + 1, state := .idle }
  else if s.tx.bs ≠ 0 ∧ (s.tx.fsib + 1).toNat = s.tx.bs.toNat then
    { s.tx with remaining := s.tx.remaining.drop 7, sn := s.tx.sn + 1, fsib := s.tx.fsib + 1, state := .awaitFc,
                fcArmed := true }
  else
    { s.tx with remaining := s.tx.remaining.drop 7, sn := s.tx.sn + 1, fsib := s.tx.fsib + 1, state := .sendingBlock,
                stminArmed := true }

/-- What EmitCF reports after its frame (R132). -/
def confirmAfterCf (s : State) : List Output :=
  if s.answer = .err then [.ind (.txConfirm .channelError)]
  else if s.tx.remaining.length ≤ 7 then [.ind (.txConfirm .success)] else []

/-- A block counter reaches a block size as a 10-bit word exactly when it does as a number. -/
theorem eq_zeroExtend_iff (n : BitVec 10) (b : BitVec 8) : n = b.zeroExtend 10 ↔ n.toNat = b.toNat := by
  rw [← BitVec.toNat_inj, BitVec.toNat_setWidth, Nat.mod_eq_of_lt (by omega)]

/-- EmitCF hands one frame to the channel, uses up its answer, and writes and reports what the outcome asks for. -/
theorem emitCf_eq (s : State) :
    emitCf s = { s with
      channel := s.channel.tail, draws := s.draws + 1, tx := txAfterCf s,
      out := s.out ++ [.frame s.cfg.txId (encodePdu (.cf s.tx.sn.toNat (s.tx.remaining.take 7))) s.answer] ++
        confirmAfterCf s } := by
  have hfull := eq_zeroExtend_iff (s.tx.fsib + 1) s.tx.bs
  have hok : s.answer = .ok → ¬ s.answer = .err := by rintro h; rw [h]; nofun
  rcases emitCf_cases s with ⟨ha, h⟩ | ⟨ha, hlast, h⟩ | ⟨ha, hmore, hb, h⟩ | ⟨ha, hmore, hb, h⟩ <;>
    rw [h, txAfterCf, confirmAfterCf]
  · rw [if_pos ha, if_pos ha]; rfl
  · rw [if_neg (hok ha), if_neg (hok ha), if_pos hlast, if_pos hlast, ← List.drop_of_length_le hlast]; rfl
  · rw [hfull] at hb
    simp only [if_neg (hok ha), if_neg (Nat.not_le_of_lt hmore), if_pos hb, List.append_nil]; rfl
  · rw [hfull] at hb
    simp only [if_neg (hok ha), if_neg (Nat.not_le_of_lt hmore), if_neg hb, List.append_nil]; rfl

/-- The CF of the next up to 7 bytes: its number, the bytes, and 0x00 to the end (R108). -/
theorem encodePdu_cf_take_bytes (sn : BitVec 4) (r : List Byte) :
    (encodePdu (.cf sn.toNat (r.take 7))).bytes =
      BitVec.ofNat 8 (0x20 + sn.toNat) :: (r.take 7 ++ List.replicate (7 - r.length) 0) := by
  have hpad : 7 - min 7 r.length = 7 - r.length := by omega
  rw [encodePdu_cf_bytes _ (List.length_take_le _ _), Nat.mod_eq_of_lt sn.isLt, pad0, List.length_take, hpad]

/-! ## Timers -/

theorem expire_of_armed {t : Timer} {s : State} (h : s.armed t = true) (rule : State → State) :
    expire t rule s = rule (disarm t s) := if_pos h

theorem expire_of_disarmed {t : Timer} {s : State} (h : s.armed t = false) (rule : State → State) :
    expire t rule s = s := if_neg (by simp [h])

/-- The expiry in a pause runs EmitCF with TX_STMIN disarmed (R138). -/
theorem tmoTxStmin_of_sendingBlock {s : State} (hs : s.tx.state = .sendingBlock) (ha : s.tx.stminArmed = true) :
    tmoTxStmin s = emitCf (disarm .txStmin s) := by
  rw [tmoTxStmin, expire_of_armed (t := .txStmin) ha, disarm_txStmin_tx, if_pos hs]

/-- Settles O26: the expiry runs EmitCF with TX_STMIN disarmed. -/
theorem stminExpirySendsNextCf : Obligations.StminExpirySendsNextCf := by
  intro s hs ha
  refine ⟨_, encodePdu_cf_take_bytes s.tx.sn s.tx.remaining, ?_⟩
  rw [exec_evTmoTxStmin, tmoTxStmin_of_sendingBlock hs ha, emitCf_eq]
  rfl

/-- Settles O30: the expiry runs AbortTx, which disarms TX_FC once more. -/
theorem flowControlTimeoutAborts : Obligations.FlowControlTimeoutAborts := by
  intro s hs ha
  rw [exec_evTmoTxFc, tmoTxFc, expire_of_armed (t := .txFc) ha, disarm_awaitsFc, if_pos ((awaitsFc_iff s).2 hs)]
  rfl

/-- Settles O32: an expiry looks at its timer first. -/
theorem staleExpiriesDoNothing : Obligations.StaleExpiriesDoNothing := by
  refine fun s => ⟨fun h => ?_, fun h => ?_, fun h => ?_, fun h => ?_⟩
  · rw [exec_evTmoTxFc, tmoTxFc, expire_of_disarmed (t := .txFc) h]
  · rw [exec_evTmoTxStmin, tmoTxStmin, expire_of_disarmed (t := .txStmin) h]
  · rw [exec_evTmoRxCf, tmoRxCf, expire_of_disarmed (t := .rxCf) h]
  · rw [exec_evTmoRxGuard, tmoRxGuard, expire_of_disarmed (t := .rxGuard) h]

/-! ## TX_START and TX_CANCEL -/

/-- The FF of a payload is the frame the encoder makes of its length and its first 6 bytes (R107). -/
theorem encodePdu_ff_eq_payloadFf {p : List Byte} (h6 : 6 ≤ p.length) (hl : p.length ≤ 4095) :
    encodePdu (.ff p.length (p.take 6)) = payloadFf p := by
  have hlow : BitVec.ofNat 8 (p.length % 256) = BitVec.ofNat 8 p.length :=
    BitVec.eq_of_toNat_eq (by simp)
  have hfull : 6 ≤ (p.take 6).length := by simpa using h6
  rw [← Frame.ofBytes_bytes (encodePdu _), encodePdu_ff_bytes hl (List.length_take_le _ _), pad0_full hfull, hlow]
  rfl

/-- A TX_START that is accepted answers first and then sends its frame (R130, R131). -/
theorem channelSend_respond (id : Ident) (f : Frame) (r : Response) (s : State) :
    channelSend id f (respond r s) = { s with
      channel := s.channel.tail, draws := s.draws + 1, out := s.out ++ [.resp r, .frame id f s.answer] } := by
  rw [← List.singleton_append, ← List.append_assoc]; rfl

/-- Settles O24: a busy Sender does not look at the length. -/
theorem txStartRejected : Obligations.TxStartRejected := by
  refine fun p s => ⟨fun hs => ?_, fun hs hl => ?_⟩
  · rw [exec_evTxStart, txStart, if_pos hs]; rfl
  · rw [exec_evTxStart, txStart, if_neg (not_not.2 hs), if_pos (c := p.length > Config.maxLen) hl]; rfl

/-- Settles O22: of the outcomes of TX_START only the SF's is left. -/
theorem txStartShortPayload : Obligations.TxStartShortPayload := by
  intro p s hs h7
  refine ⟨_, encodePdu_sf_bytes h7 h7, ?_⟩
  rcases txStart_cases p s with ⟨hbusy, _⟩ | ⟨_, hl, _⟩ | ⟨_, _, h⟩ | ⟨_, hl, _⟩ | ⟨_, hl, _⟩
  · exact absurd hs hbusy
  · omega
  · rw [exec_evTxStart, h, channelSend_respond]
    simp only [indicate, emit, List.append_assoc]; rfl
  · omega
  · omega

/-- Settles O23: of the outcomes of TX_START only the FF's two are left, one for each answer of the channel. -/
theorem txStartLongPayload : Obligations.TxStartLongPayload := by
  intro p s hs h8 hmax
  have hff : frameFf p.length (p.take 6) = payloadFf p := encodePdu_ff_eq_payloadFf (by omega) hmax
  rcases txStart_cases p s with ⟨hbusy, _⟩ | ⟨_, hl, _⟩ | ⟨_, hl, _⟩ | ⟨_, _, _, ha, h⟩ | ⟨_, _, _, ha, h⟩
  · exact absurd hs hbusy
  · omega
  · omega
  · refine ⟨by simp [ha], fun _ => ?_⟩
    rw [exec_evTxStart, h, hff, channelSend_respond, ha]
    simp only [indicate, emit, List.append_assoc]; rfl
  · refine ⟨fun _ => ?_, by simp [ha]⟩
    rw [exec_evTxStart, h, hff, channelSend_respond, ha]
    rfl

/-- Settles O31: TX_CANCEL runs AbortTx unless the Sender is IDLE. -/
theorem cancelAbortsTransfer : Obligations.CancelAbortsTransfer := by
  refine fun s => ⟨fun hs => ?_, fun hs => ?_⟩
  · rw [exec_evTxCancel, txCancel, if_neg hs]; rfl
  · rw [exec_evTxCancel, txCancel, if_pos hs]

/-! ## Flow Control -/

/-- A Flow Control under the right identifier goes to the Sender (R168). -/
theorem exec_evFrameIn_fc {f : Frame} {fs : FlowStatus} {bs st : Byte} (h : codecDecode f = .pdu (.fc fs bs st))
    (s : State) : exec (.evFrameIn s.cfg.rxId f) s = .next (onFlowControl fs bs st s) := by
  rw [exec_evFrameIn, frameIn, if_pos rfl, h, route]

/-- The Sender drops every Flow Control that it does not await (R136). -/
theorem onFlowControl_of_not_awaitsFc {s : State} (h : s.awaitsFc = false) (fs : FlowStatus) (bs st : Byte) :
    onFlowControl fs bs st s = s := if_neg (by simp [h])

/-- A CTS that the Sender awaits runs EmitCF with the parameters recorded (R133). -/
theorem exec_fcCts {f : Frame} {s : State} (hf : f.f0 = 0x30) (ha : s.awaitsFc = true) :
    exec (.evFrameIn s.cfg.rxId f) s = .next (emitCf (ctsRecorded f.f1 f.f2 s)) := by
  rw [exec_evFrameIn_fc (codecDecode_fcCts hf), onFlowControl, if_pos ha, acceptCts]

/-- Settles O25: the CTS runs EmitCF with TX.FSIB at 0, so that its CF fills the block exactly when bs is 1. -/
theorem ctsSendsFirstCf : Obligations.CtsSendsFirstCf := by
  intro f s hf ha
  refine ⟨_, encodePdu_cf_take_bytes s.tx.sn s.tx.remaining, ?_⟩
  have hone : (f.f1 ≠ 0 ∧ (0 + 1 : BitVec 10).toNat = f.f1.toNat) ↔ f.f1 = 1 := by bv_omega
  rw [exec_fcCts hf ha, emitCf_eq, txAfterCf]
  simp only [ctsRecorded_tx, hone]
  rfl

/-- Settles O27: WAIT arms TX_FC. -/
theorem waitRestartsTimeout : Obligations.WaitRestartsTimeout := by
  intro f s hf ha
  rw [exec_evFrameIn_fc (codecDecode_fcWait hf), onFlowControl, if_pos ha]
  rfl

/-- Settles O28: OVFLW runs AbortTx. -/
theorem overflowAbortsTransfer : Obligations.OverflowAbortsTransfer := by
  intro f s hf hs
  rw [exec_evFrameIn_fc (codecDecode_fcOvflw hf), onFlowControl, if_pos ((awaitsFc_iff s).2 hs)]
  rfl

/-- Settles O29: f[0] in 0x30..0x32 decodes to a Flow Control, which the Sender does not await. -/
theorem unawaitedFlowControlDropped : Obligations.UnawaitedFlowControlDropped := by
  intro f s hlo hhi hs
  have hna : s.awaitsFc = false := hs.elim awaitsFc_of_idle awaitsFc_of_sendingBlock
  obtain ⟨fs, hdec⟩ : ∃ fs, codecDecode f = .pdu (.fc fs f.f1 f.f2) := by
    obtain h | h | h : f.f0 = 0x30 ∨ f.f0 = 0x31 ∨ f.f0 = 0x32 := by bv_omega
    · exact ⟨_, codecDecode_fcCts h⟩
    · exact ⟨_, codecDecode_fcWait h⟩
    · exact ⟨_, codecDecode_fcOvflw h⟩
  rw [exec_evFrameIn_fc hdec, onFlowControl_of_not_awaitsFc hna]

end Sys2Proof.Machine
end

section
/-! The Sender and the values the block advertises as a receiver (42_sender R146): every Sender procedure commutes with
putting other values of CFG.BS and CFG.STMIN into the block. -/

namespace Sys2Proof.Machine

open Sys2Proof.Safety

/-- The block with other values of CFG.BS and CFG.STMIN. -/
def putAdvertised (b m : Byte) (s : State) : State := { s with cfg := { s.cfg with bs := b, stmin := m } }

@[simp] theorem putAdvertised_answer (b m : Byte) (s : State) : (putAdvertised b m s).answer = s.answer := rfl

section Sender
variable (b m : Byte)

theorem emitCf_commute_putAdvertised : Function.Commute emitCf (putAdvertised b m) := by
  intro s
  simp only [emitCf_eq]
  rfl

theorem txStart_commute_putAdvertised (p : List Byte) : Function.Commute (txStart p) (putAdvertised b m) := by
  have hsingle : Function.Commute (startSingle p) (putAdvertised b m) := by
    intro s
    simp only [startSingle, respond_answer, putAdvertised_answer]
    cases s.answer <;> rfl
  have hfirst : Function.Commute (startFirst p) (putAdvertised b m) := by
    intro s
    simp only [startFirst, respond_answer, putAdvertised_answer]
    cases s.answer <;> rfl
  exact commute_ite (P := fun s => s.tx.state ≠ .idle) (fun _ => Iff.rfl) (fun _ => rfl)
    (commute_ite (P := fun _ => p.length > Config.maxLen) (fun _ => Iff.rfl) (fun _ => rfl)
      (commute_ite (P := fun _ => p.length ≤ Config.maxSfLen) (fun _ => Iff.rfl) hsingle hfirst))

theorem txCancel_commute_putAdvertised : Function.Commute txCancel (putAdvertised b m) :=
  commute_ite (P := fun s => s.tx.state = .idle) (fun _ => Iff.rfl) (fun _ => rfl) (fun _ => rfl)

theorem tmoTxFc_commute_putAdvertised : Function.Commute tmoTxFc (putAdvertised b m) :=
  commute_expire (fun _ => rfl) (fun _ => rfl)
    (commute_ite (P := fun s => s.awaitsFc = true) (fun _ => Iff.rfl) (fun _ => rfl) (fun _ => rfl))

theorem tmoTxStmin_commute_putAdvertised : Function.Commute tmoTxStmin (putAdvertised b m) :=
  commute_expire (fun _ => rfl) (fun _ => rfl)
    (commute_ite (P := fun s => s.tx.state = .sendingBlock) (fun _ => Iff.rfl) (emitCf_commute_putAdvertised b m)
      (fun _ => rfl))

/-- The identifier filter reads CFG.RX_ID, and a Flow Control brings its own parameters. -/
theorem frameIn_commute_putAdvertised (id : Ident) {f : Frame} (hf : carriesFc f = true) :
    Function.Commute (frameIn id f) (putAdvertised b m) := by
  obtain ⟨fs, bs, st, hdec⟩ := codecDecode_of_carriesFc hf
  refine commute_ite (P := fun s => id = s.cfg.rxId) (fun _ => Iff.rfl) ?_ (fun _ => rfl)
  rw [hdec]
  refine commute_ite (P := fun s => s.awaitsFc = true) (fun _ => Iff.rfl) ?_ (fun _ => rfl)
  cases fs with
  | cts => exact (emitCf_commute_putAdvertised b m).comp_left (fun _ => rfl)
  | wait => exact fun _ => rfl
  | ovflw => exact fun _ => rfl

end Sender

/-- Settles O50: each event of the Sender runs one procedure, which commutes with other advertised values, and it keeps
CFG. -/
theorem senderIgnoresAdvertisedValues : Obligations.SenderIgnoresAdvertisedValues := by
  intro i s t b m hi h
  obtain ⟨g, hg, hcomm⟩ : ∃ g : State → State, (∀ s, exec i s = .next (g s)) ∧
      Function.Commute g (putAdvertised b m) := by
    rcases hi with rfl | rfl | rfl | ⟨p, rfl⟩ | ⟨id, f, rfl, hf⟩
    · exact ⟨_, exec_evTxCancel, txCancel_commute_putAdvertised b m⟩
    · exact ⟨_, exec_evTmoTxFc, tmoTxFc_commute_putAdvertised b m⟩
    · exact ⟨_, exec_evTmoTxStmin, tmoTxStmin_commute_putAdvertised b m⟩
    · exact ⟨_, exec_evTxStart p, txStart_commute_putAdvertised b m p⟩
    · exact ⟨_, exec_evFrameIn id f, frameIn_commute_putAdvertised b m id hf⟩
  obtain rfl : g s = t := Host.Outcome.next.inj ((hg s).symm.trans h)
  have hcfg : (g s).cfg = s.cfg := (exec_move h).keeps_cfg_params_inputs.1
  have hput : putAdvertised b m (g s) = { g s with cfg := { s.cfg with bs := b, stmin := m } } := by
    rw [putAdvertised, hcfg]
  exact (hg _).trans (congrArg Host.Outcome.next ((hcomm s).trans hput))

end Sys2Proof.Machine
end

section
/-! The Sender at the end of a transfer and between transfers (42_sender R145). -/

namespace Sys2Proof.Machine

open Sys2Proof.Safety

/-! ## The end of a transfer -/

/-- A step that puts out a TxConfirm, among those that R29 allows, leaves the Sender IDLE. -/
theorem ConfirmsEnds.idle_of_txConfirm {s t : State} (h : ConfirmsEnds s t) {c : TxCode}
    (hmem : Output.ind (.txConfirm c) ∈ newOut s t) : t.tx.state = .idle := by
  have hpos : 0 < ((newOut s t).filter isTxConfirm).length :=
    List.length_pos_of_mem (List.mem_filter.2 ⟨hmem, rfl⟩)
  rw [h] at hpos
  by_contra hne
  simp [hne] at hpos

/-- The invariants give an IDLE Sender disarmed timers and an empty TX.REMAINING (R33, R48). -/
theorem disarmed_and_empty_of_idle {x : Tx} (h : senderInv x) (hi : x.state = .idle) :
    x.fcArmed = false ∧ x.stminArmed = false ∧ x.remaining = [] := by
  obtain ⟨hdisarmed, _, _, _, _, hempty, _⟩ := h
  exact ⟨(hdisarmed hi).1, (hdisarmed hi).2, hempty hi⟩

/-! ## Between transfers -/

/-- From s to t the Sender stays IDLE and no frame but a Flow Control is sent. -/
def StaysIdle (s t : State) : Prop :=
  t.tx.state = .idle ∧
  ∀ (id : Ident) (f : Frame) (r : ChannelResult), Output.frame id f r ∈ newOut s t → carriesFc f = true

theorem carriesFc_frameFc (fs : FlowStatus) (bs st : Byte) : carriesFc (frameFc fs bs st) = true := by
  have hdec : codecDecode (frameFc fs bs st) = .pdu (.fc fs bs st) := codecDecode_encodePdu_fc fs bs st
  rw [carriesFc, hdec]

/-- A step that sends nothing. -/
theorem staysIdle_of_silent {s t : State} {os : List Output} (ht : t.tx.state = .idle) (ho : t.out = s.out ++ os)
    (hf : os.filter isFrame = []) : StaysIdle s t := by
  refine ⟨ht, fun id f r hmem => ?_⟩
  rw [newOut_eq ho] at hmem
  have hframe : Output.frame id f r ∈ os.filter isFrame := List.mem_filter.2 ⟨hmem, rfl⟩
  simp [hf] at hframe

/-- A step whose one frame is a Flow Control of the Receiver (R162). -/
theorem staysIdle_of_emitFc {s t : State} {os : List Output} {id : Ident} {fs : FlowStatus} {bs st : Byte}
    {r : ChannelResult} (ht : t.tx.state = .idle) (ho : t.out = s.out ++ os)
    (hf : os.filter isFrame = [.frame id (frameFc fs bs st) r]) : StaysIdle s t := by
  refine ⟨ht, fun id' f r' hmem => ?_⟩
  rw [newOut_eq ho] at hmem
  have hone : Output.frame id' f r' ∈ os.filter isFrame := List.mem_filter.2 ⟨hmem, rfl⟩
  rw [hf, List.mem_singleton] at hone
  obtain ⟨_, rfl, _⟩ := Output.frame.inj hone
  exact carriesFc_frameFc fs bs st

theorem staysIdle_refl {s : State} (hi : s.tx.state = .idle) : StaysIdle s s :=
  staysIdle_of_silent hi (List.append_nil _).symm rfl

/-- A CF is appended in silence, and its payload delivered where it completes (R154 to R156). -/
theorem acceptCf_staysIdle {s : State} (hi : s.tx.state = .idle) (d : List Byte) : StaysIdle s (acceptCf d s) := by
  rcases acceptCf_cases d s with ⟨_, h⟩ | ⟨_, h⟩ <;> rw [h]
  · rw [complete_eq]
    exact staysIdle_of_silent hi rfl rfl
  · rcases blockCheck_cases (cfAppended d s) with ⟨_, h⟩ | ⟨_, h⟩ <;> rw [h] <;>
      exact staysIdle_of_silent hi (List.append_nil _).symm rfl

/-- No inbound frame starts a transfer: the Receiver answers with Flow Controls only, and an IDLE Sender drops those of
the peer (R136, R168). -/
theorem frameIn_staysIdle {s : State} (hi : s.tx.state = .idle) (id : Ident) (f : Frame) :
    StaysIdle s (frameIn id f s) := by
  rcases frameIn_cases id f s with ⟨_, h⟩ | ⟨_, h⟩ <;> rw [h]
  · cases codecDecode f with
    | error e => exact staysIdle_of_silent hi rfl rfl
    | pdu p =>
      cases p with
      | sf l d =>
        rcases onSf_cases d s with ⟨_, h⟩ | ⟨_, h⟩ <;> rw [route, h] <;> exact staysIdle_of_silent hi rfl rfl
      | ff n d =>
        rcases onFf_cases n d s with ⟨_, h⟩ | ⟨_, h⟩ <;> rw [route, h]
        · exact staysIdle_of_emitFc hi rfl rfl
        · exact staysIdle_of_emitFc hi (List.append_assoc _ _ _) rfl
      | cf n d =>
        rcases onCf_cases n d s with ⟨_, h⟩ | ⟨_, _, h⟩ | ⟨_, _, h⟩ <;> rw [route, h]
        · exact staysIdle_refl hi
        · exact staysIdle_of_silent hi rfl rfl
        · exact acceptCf_staysIdle hi d
      | fc fs bs st =>
        rw [route, onFlowControl_of_not_awaitsFc (awaitsFc_of_idle hi)]
        exact staysIdle_refl hi
  · exact staysIdle_refl hi

/-- An expiry keeps the Sender IDLE when its rule does. -/
theorem expire_staysIdle {s : State} (hi : s.tx.state = .idle) {t : Timer} {rule : State → State}
    (h : StaysIdle s (rule (disarm t s))) : StaysIdle s (expire t rule s) := by
  rcases expire_cases t rule s with ⟨_, he⟩ | ⟨_, he⟩ <;> rw [he]
  · exact h
  · exact staysIdle_refl hi

/-- From IDLE only TX_START starts a transfer. -/
theorem exec_staysIdle {i : Instr} {s t : State} (hi : s.tx.state = .idle) (hne : ∀ p, i ≠ .evTxStart p)
    (h : exec i s = .next t) : StaysIdle s t := by
  rcases exec_next_cases h with ⟨r, rfl⟩ | ⟨p, rfl, _⟩ | ⟨_, rfl⟩ | ⟨id, f, _, rfl⟩ | ⟨_, rfl⟩ | ⟨_, rfl⟩ |
    ⟨_, rfl⟩ | ⟨_, rfl⟩
  · exact staysIdle_of_silent hi (List.append_nil _).symm rfl
  · exact absurd rfl (hne p)
  · rw [txCancel, if_pos hi]
    exact staysIdle_refl hi
  · exact frameIn_staysIdle hi id f
  · refine expire_staysIdle hi ?_
    rw [disarm_awaitsFc, awaitsFc_of_idle hi]
    exact staysIdle_of_silent hi (List.append_nil _).symm rfl
  · refine expire_staysIdle hi ?_
    rw [disarm_txStmin_tx, if_neg (by simp [hi])]
    exact staysIdle_of_silent hi (List.append_nil _).symm rfl
  · refine expire_staysIdle hi ?_
    split
    · exact staysIdle_of_silent hi rfl rfl
    · exact staysIdle_of_silent hi (List.append_nil _).symm rfl
  · exact expire_staysIdle hi (staysIdle_of_emitFc hi rfl rfl)

/-- Settles O53: a step confirms only where R29 allows, which leaves the Sender IDLE, and the invariants give the rest;
from IDLE only TX_START begins anything. -/
theorem txConfirmLeavesSenderIdle : Obligations.TxConfirmLeavesSenderIdle := by
  refine ⟨fun s t c hinv h hmem => ?_, fun i s t hi hne h => exec_staysIdle hi hne h⟩
  have hidle : t.tx.state = .idle := by
    rcases step_move h with ⟨_, rfl⟩ | ⟨xs, _, rfl⟩ | ⟨w, xs, _, m⟩
    · exact Move.stay.confirmsEnds.idle_of_txConfirm hmem
    · rfl
    · exact m.confirmsEnds.idle_of_txConfirm hmem
  exact ⟨hidle, disarmed_and_empty_of_idle (stepKeepsInvariants s t hinv h).1 hidle⟩

end Sys2Proof.Machine
end

section
/-! A whole transfer of the Sender (42_sender R131 to R133, R138, R142, R144, 20_memory R63): what holds after the FF and
the first j CFs, kept by each event of the run. -/

namespace Sys2Proof.Machine

open Sys2Proof.Safety

/-! ## Runs -/

theorem execAll_singleton (i : Instr) (s : State) : execAll [i] s = exec i s := by
  rw [execAll]
  cases exec i s <;> rfl

/-- A run goes on from where its first part has led. -/
theorem execAll_append {is : List Instr} {s t : State} (h : execAll is s = .next t) (js : List Instr) :
    execAll (is ++ js) s = execAll js t := by
  induction is generalizing s with
  | nil => rw [List.nil_append, Host.Outcome.next.inj h]
  | cons i is ih =>
    rw [execAll] at h
    rw [List.cons_append, execAll]
    split at h
    · exact ih h
    · cases h
    · cases h

/-! ## The frames and the events of a transfer -/

/-- The FF of a payload and its first j CFs. -/
def firstFrames (p : List Byte) (j : Nat) : List Frame :=
  payloadFf p :: (List.range j).map (fun i => payloadCf p (i + 1))

theorem firstFrames_succ (p : List Byte) (j : Nat) :
    firstFrames p (j + 1) = firstFrames p j ++ [payloadCf p (j + 1)] := by
  rw [firstFrames, List.range_succ, List.map_append]
  rfl

theorem firstFrames_cfCount (p : List Byte) : firstFrames p (cfCount p.length) = payloadFf p :: payloadCfs p := rfl

/-- The CF after the first j is the encoder's for the next bytes under the number j + 1 (R142, R63). -/
theorem encodePdu_cf_eq_payloadCf (p : List Byte) (j : Nat) :
    encodePdu (.cf (BitVec.ofNat 4 (j + 1)).toNat ((p.drop (6 + 7 * j)).take 7)) = payloadCf p (j + 1) := by
  have hwidth : 6 + 7 * (j + 1) - (6 + 7 * j) = 7 := by omega
  rw [← Frame.ofBytes_bytes (encodePdu _), encodePdu_cf_bytes _ (List.length_take_le _ _), payloadCf,
    BitVec.toNat_ofNat, Nat.mod_mod, slice, Nat.add_sub_cancel, hwidth]

/-- The j-th CF needs a Flow Control: the first, and each that follows a full block. -/
abbrev NeedsFc (bs : Byte) (j : Nat) : Prop := j = 0 ∨ (bs ≠ 0 ∧ j % bs.toNat = 0)

theorem sendEvents_succ_of_needsFc {id : Ident} {fc : Frame} {j : Nat} (h : NeedsFc fc.f1 j) :
    sendEvents id fc (j + 1) = sendEvents id fc j ++ [.evFrameIn id fc] := by
  rw [sendEvents, List.range_succ, List.map_append, List.map_singleton, if_pos h]
  rfl

theorem sendEvents_succ_of_not_needsFc {id : Ident} {fc : Frame} {j : Nat} (h : ¬ NeedsFc fc.f1 j) :
    sendEvents id fc (j + 1) = sendEvents id fc j ++ [.evTmoTxStmin] := by
  rw [sendEvents, List.range_succ, List.map_append, List.map_singleton, if_neg h]
  rfl

/-! ## What an accepted EmitCF writes -/

theorem answer_of_channel {s : State} {r : ChannelResult} {rs : List ChannelResult} (h : s.channel = r :: rs) :
    s.answer = r := by rw [State.answer, h]

/-- A CF that went out takes its bytes from TX.REMAINING and advances both counters, whatever comes next (R132). -/
theorem txAfterCf_of_ok {s : State} (h : s.answer = .ok) :
    (txAfterCf s).remaining = s.tx.remaining.drop 7 ∧ (txAfterCf s).sn = s.tx.sn + 1 ∧
    (txAfterCf s).bs = s.tx.bs ∧ (txAfterCf s).fsib = s.tx.fsib + 1 := by
  rw [txAfterCf, if_neg (by simp [h])]
  split_ifs with hlast
  · exact ⟨(List.drop_of_length_le hlast).symm, rfl, rfl, rfl⟩
  · exact ⟨rfl, rfl, rfl, rfl⟩
  · exact ⟨rfl, rfl, rfl, rfl⟩

/-! ## The transfer after j CFs -/

/-- What the first j CFs of the payload p leave behind, in a transfer started in s with `more` left of the channel's
answers at the end: all but TX.STATE, the timers and the block. -/
structure Sent (p : List Byte) (s : State) (more : List ChannelResult) (j : Nat) (t : State) : Prop where
  cfg : t.cfg = s.cfg
  rx : t.rx = s.rx
  remaining : t.tx.remaining = p.drop (6 + 7 * j)
  sn : t.tx.sn = BitVec.ofNat 4 (j + 1)
  channel : t.channel = List.replicate (cfCount p.length - j) .ok ++ more
  out : t.out = s.out ++ [.resp .accepted] ++ (firstFrames p j).map (fun f => .frame s.cfg.txId f .ok) ++
    if j = cfCount p.length then [.ind (.txConfirm .success)] else []

/-- The block of size bs after j CFs. -/
def BlockCount (bs : Byte) (j : Nat) (x : Tx) : Prop := x.bs = bs ∧ (bs ≠ 0 → x.fsib.toNat = j % bs.toNat)

/-- What the Sender waits for after j of n CFs. -/
structure Waits (bs : Byte) (n j : Nat) (t : State) : Prop where
  idle : j = n → t.tx.state = .idle
  awaitsFc : j < n → NeedsFc bs j → t.awaitsFc = true
  pause : j < n → ¬ NeedsFc bs j → t.tx.state = .sendingBlock ∧ t.tx.stminArmed = true ∧ BlockCount bs j t.tx

/-- The counter after one more CF of the block. -/
theorem BlockCount.fsib_add_one {bs : Byte} {j : Nat} {x : Tx} (h : BlockCount bs j x) (h0 : bs ≠ 0) :
    (x.fsib + 1).toNat = j % bs.toNat + 1 := by
  have hlt := Nat.mod_lt j (show bs.toNat > 0 by bv_omega)
  rw [← h.2 h0] at hlt ⊢
  bv_omega

/-- The block is full after the next CF exactly when the CF after that needs a Flow Control. -/
theorem BlockCount.full_iff {bs : Byte} {j : Nat} {x : Tx} (h : BlockCount bs j x) :
    (x.bs ≠ 0 ∧ (x.fsib + 1).toNat = x.bs.toNat) ↔ NeedsFc bs (j + 1) := by
  rw [h.1, NeedsFc, or_iff_right j.succ_ne_zero]
  refine and_congr_right fun h0 => ?_
  obtain ⟨c, hc⟩ := Nat.exists_eq_add_one.2 (show 0 < bs.toNat by bv_omega)
  rw [h.fsib_add_one h0, hc, Nat.succ_mod_succ_eq_zero_iff, Nat.add_right_cancel_iff]

/-- A CF that does not fill the block advances its counter. -/
theorem BlockCount.succ {bs : Byte} {j : Nat} {x y : Tx} (h : BlockCount bs j x) (hn : ¬ NeedsFc bs (j + 1))
    (hbs : y.bs = x.bs) (hfsib : y.fsib = x.fsib + 1) : BlockCount bs (j + 1) y := by
  refine ⟨hbs.trans h.1, fun h0 => ?_⟩
  have hlt := Nat.mod_lt j (show bs.toNat > 0 by bv_omega)
  have hne : j % bs.toNat + 1 ≠ bs.toNat := fun he =>
    hn (h.full_iff.1 ⟨h.1 ▸ h0, by rw [h.fsib_add_one h0, h.1, he]⟩)
  have hroom : j % bs.toNat + 1 < bs.toNat := by omega
  rw [hfsib, h.fsib_add_one h0, ← Nat.mod_add_mod j, Nat.mod_eq_of_lt hroom]

section Transfer
variable {p : List Byte} {fc : Frame} {s : State} {more : List ChannelResult} {j : Nat} {t : State}

/-- The first 6 bytes go with the FF, 7 with each CF (R144). -/
theorem Sent.remaining_le_iff (h : Sent p s more j t) (hj : j < cfCount p.length) :
    t.tx.remaining.length ≤ 7 ↔ j + 1 = cfCount p.length := by
  rw [h.remaining, List.length_drop]
  rw [cfCount] at hj ⊢
  omega

/-- The channel answers ok to the next CF too, and so on up to the last. -/
theorem Sent.channel_eq_cons (h : Sent p s more j t) (hj : j < cfCount p.length) :
    t.channel = .ok :: (List.replicate (cfCount p.length - (j + 1)) .ok ++ more) := by
  have hrep : cfCount p.length - j = cfCount p.length - (j + 1) + 1 := by omega
  rw [h.channel, hrep, List.replicate_succ, List.cons_append]

/-- The next event of the run makes the Sender emit a CF, from registers that count the block right. -/
theorem Sent.exec_event (hfc : fc.f0 = 0x30) (h : Sent p s more j t) (hw : Waits fc.f1 (cfCount p.length) j t)
    (hj : j < cfCount p.length) :
    ∃ i u, sendEvents s.cfg.rxId fc (j + 1) = sendEvents s.cfg.rxId fc j ++ [i] ∧ exec i t = .next (emitCf u) ∧
      Sent p s more j u ∧ BlockCount fc.f1 j u.tx := by
  obtain ⟨hcfg, hrx, hrem, hsn, hchannel, hout⟩ := h
  by_cases hn : NeedsFc fc.f1 j
  · refine ⟨_, ctsRecorded fc.f1 fc.f2 t, sendEvents_succ_of_needsFc hn, ?_, ⟨hcfg, hrx, hrem, hsn, hchannel, hout⟩,
      rfl, fun h0 => ?_⟩
    · rw [← hcfg]
      exact exec_fcCts hfc (hw.awaitsFc hj hn)
    · rcases hn with rfl | ⟨_, hmod⟩
      · simp
      · simp [hmod]
  · obtain ⟨hs, ha, hblock⟩ := hw.pause hj hn
    refine ⟨_, disarm .txStmin t, sendEvents_succ_of_not_needsFc hn, ?_, ⟨hcfg, hrx, hrem, hsn, hchannel, hout⟩, hblock⟩
    rw [exec_evTmoTxStmin, tmoTxStmin_of_sendingBlock hs ha]

/-- EmitCF sends the next CF of the payload. -/
theorem Sent.succ (h : Sent p s more j t) (hj : j < cfCount p.length) : Sent p s more (j + 1) (emitCf t) := by
  have hlast := h.remaining_le_iff hj
  have hchannel := h.channel_eq_cons hj
  have ha := answer_of_channel hchannel
  obtain ⟨hcfg, hrx, hrem, hsn, _, hout⟩ := h
  obtain ⟨hrem', hsn', _, _⟩ := txAfterCf_of_ok ha
  rw [if_neg (by omega), List.append_nil] at hout
  rw [emitCf_eq]
  refine ⟨hcfg, hrx, ?_, ?_, ?_, ?_⟩ <;> dsimp only
  · rw [hrem', hrem, List.drop_drop]; rfl
  · rw [hsn', hsn]; exact (BitVec.ofNat_add _ _).symm
  · rw [hchannel]; rfl
  · rw [hout, hsn, hrem, encodePdu_cf_eq_payloadCf, confirmAfterCf, ha, hcfg, firstFrames_succ, if_neg nofun]
    simp only [hlast, List.map_append, List.append_assoc]
    rfl

/-- After that CF the Sender is done, or waits as the block says. -/
theorem Sent.waits_succ {bs : Byte} (h : Sent p s more j t) (hb : BlockCount bs j t.tx) (hj : j < cfCount p.length) :
    Waits bs (cfCount p.length) (j + 1) (emitCf t) := by
  have hlast := h.remaining_le_iff hj
  have ha := answer_of_channel (h.channel_eq_cons hj)
  obtain ⟨_, _, hbs, hfsib⟩ := txAfterCf_of_ok ha
  have hne : ¬ t.answer = .err := by simp [ha]
  have htx : (emitCf t).tx = txAfterCf t := by rw [emitCf_eq]
  refine ⟨fun he => ?_, fun hlt hn => ?_, fun hlt hn => ?_⟩
  · rw [htx, txAfterCf, if_neg hne, if_pos (hlast.2 he)]
  · refine awaitsFc_of_awaitFc ?_
    rw [htx, txAfterCf, if_neg hne, if_neg (by omega), if_pos (hb.full_iff.2 hn)]
  · rw [htx]
    refine ⟨?_, ?_, hb.succ hn hbs hfsib⟩ <;>
      rw [txAfterCf, if_neg hne, if_neg (by omega), if_neg (mt hb.full_iff.1 hn)]

/-- TX_START sends the FF and begins to wait for the first Flow Control (R131). -/
theorem exec_evTxStart_sent (hi : s.tx.state = .idle) (h8 : 8 ≤ p.length) (hmax : p.length ≤ 4095)
    (hchannel : s.channel = List.replicate (cfCount p.length + 1) .ok ++ more) (bs : Byte) :
    ∃ t, exec (.evTxStart p) s = .next t ∧ Sent p s more 0 t ∧ Waits bs (cfCount p.length) 0 t := by
  have hn : 0 ≠ cfCount p.length := by rw [cfCount]; omega
  rw [List.replicate_succ, List.cons_append] at hchannel
  have hstart := (txStartLongPayload p s hi h8 hmax).1 (answer_of_channel hchannel)
  refine ⟨_, hstart, ⟨rfl, rfl, rfl, rfl, ?_, ?_⟩,
    ⟨fun h0 => absurd h0 hn, fun _ _ => rfl, fun _ h => absurd (.inl rfl) h⟩⟩
  · rw [hchannel]; rfl
  · rw [if_neg hn, List.append_nil, List.append_assoc]; rfl

/-- The run up to each CF, by induction on their number: each event sends the next. -/
theorem execAll_sendEvents (hfc : fc.f0 = 0x30) (h : Sent p s more 0 t) (hw : Waits fc.f1 (cfCount p.length) 0 t)
    (hj : j ≤ cfCount p.length) :
    ∃ u, execAll (sendEvents s.cfg.rxId fc j) t = .next u ∧ Sent p s more j u ∧ Waits fc.f1 (cfCount p.length) j u := by
  induction j with
  | zero => exact ⟨t, rfl, h, hw⟩
  | succ j ih =>
    obtain ⟨u, hrun, hsent, hwaits⟩ := ih (by omega)
    obtain ⟨i, v, hevents, hexec, hsent', hblock⟩ := hsent.exec_event hfc hwaits hj
    refine ⟨emitCf v, ?_, hsent'.succ hj, hsent'.waits_succ hblock hj⟩
    rw [hevents, execAll_append hrun, execAll_singleton, hexec]

end Transfer

/-- Settles O59: TX_START sends the FF, the events send the CFs one by one, and the last one confirms. -/
theorem senderTransfersPayload : Obligations.SenderTransfersPayload := by
  intro p fc s more hi h8 hmax hfc hchannel
  obtain ⟨t, hstart, hsent, hwaits⟩ := exec_evTxStart_sent hi h8 hmax hchannel fc.f1
  obtain ⟨u, hrun, hall, hdone⟩ := execAll_sendEvents hfc hsent hwaits le_rfl
  have hempty : p.length ≤ 6 + 7 * cfCount p.length := by rw [cfCount]; omega
  refine ⟨u, ?_, ?_, hdone.idle rfl, ?_, hall.sn, ?_, hall.rx⟩
  · rw [execAll, hstart]; exact hrun
  · rw [hall.out, if_pos rfl, firstFrames_cfCount]
  · rw [hall.remaining, List.drop_of_length_le hempty]
  · rw [hall.channel, Nat.sub_self]; rfl

end Sys2Proof.Machine
end

section
/-! The Receiver's events one by one (43_receiver R148 to R159): where the decoder and the filter send each kind of frame,
what an accepted CF does, and then what each event does to every field of the state. -/

namespace Sys2Proof.Machine

/-! ## Frames under the right identifier -/

/-- A frame under CFG.RX_ID is routed as it decodes (R167, R168). -/
theorem exec_evFrameIn_of_decode {f : Frame} {r : DecodeResult} (h : codecDecode f = r) (s : State) :
    exec (.evFrameIn s.cfg.rxId f) s = .next (route r s) := by
  rw [exec_evFrameIn, frameIn, if_pos rfl, h]

theorem exec_evFrameIn_sf {f : Frame} (h : f.f0.toNat ≤ 7) (s : State) :
    exec (.evFrameIn s.cfg.rxId f) s = .next (onSf ((f.bytes.drop 1).take f.f0.toNat) s) :=
  exec_evFrameIn_of_decode (codecDecode_sf (Nat.lt_succ_of_le h)) s

theorem exec_evFrameIn_ff {f : Frame} (hlo : 0x10 ≤ f.f0.toNat) (hhi : f.f0.toNat ≤ 0x1F) (s : State) :
    exec (.evFrameIn s.cfg.rxId f) s =
      .next (onFf ((f.f0.toNat - 0x10) * 256 + f.f1.toNat) [f.f2, f.f3, f.f4, f.f5, f.f6, f.f7] s) :=
  exec_evFrameIn_of_decode (codecDecode_ff hlo (Nat.lt_succ_of_le hhi)) s

theorem exec_evFrameIn_cf {f : Frame} (hlo : 0x20 ≤ f.f0.toNat) (hhi : f.f0.toNat ≤ 0x2F) (s : State) :
    exec (.evFrameIn s.cfg.rxId f) s =
      .next (onCf (f.f0.toNat - 0x20) [f.f1, f.f2, f.f3, f.f4, f.f5, f.f6, f.f7] s) :=
  exec_evFrameIn_of_decode (codecDecode_cf hlo (Nat.lt_succ_of_le hhi)) s

/-! ## Single Frames and First Frames -/

/-- Settles O33: in IDLE the SF's data is indicated and nothing else happens. -/
theorem singleFrameDelivered : Obligations.SingleFrameDelivered := by
  intro f s h hs
  rw [exec_evFrameIn_sf h, onSf, hs]
  rfl

/-- Settles O34: the reception is dropped before the SF's data is indicated. -/
theorem singleFrameEndsReassembly : Obligations.SingleFrameEndsReassembly := by
  intro f s h hs
  rw [exec_evFrameIn_sf h, onSf, hs]
  rfl

/-- Settles O35: a length within P_RX_BUF_CAP fits the 12 bits of RX.TOTAL, and EmitFC follows the registers' update. -/
theorem firstFrameStartsReassembly : Obligations.FirstFrameStartsReassembly := by
  intro f s hlo hhi hcap
  refine ⟨BitVec.ofNat 12 ((f.f0.toNat - 0x10) * 256 + f.f1.toNat), ?_, ?_⟩
  · rw [BitVec.toNat_ofNat, Nat.mod_eq_of_lt (hcap.trans_lt s.params.rxBufCap.isLt)]
  · rw [exec_evFrameIn_ff hlo hhi, onFf, if_pos hcap]
    rfl

/-- Settles O36: EmitFC goes before AbortRx. -/
theorem firstFrameOverCapacity : Obligations.FirstFrameOverCapacity := by
  intro f s hlo hhi hcap
  rw [exec_evFrameIn_ff hlo hhi, onFf, if_neg (Nat.not_le_of_lt hcap), abortRx, indicate, emit]
  simp only [dropReception_out, emitFc_eq, channelSend_out, List.append_assoc]
  rfl

/-! ## Consecutive Frames -/

/-- Settles O37: an IDLE Receiver leaves every CF alone. -/
theorem orphanCfIgnored : Obligations.OrphanCfIgnored := by
  intro f s hlo hhi hs
  rw [exec_evFrameIn_cf hlo hhi, onCf, hs]

/-- Settles O38: the number is tested before anything is appended. -/
theorem wrongSequenceNumberAborts : Obligations.WrongSequenceNumberAborts := by
  intro f s hlo hhi hs hsn
  rw [exec_evFrameIn_cf hlo hhi, onCf, hs]
  simp only [if_neg hsn]
  rfl

/-- In a reassembly a CF under the expected number is accepted (R154). -/
theorem exec_evFrameIn_expectedCf {f : Frame} {s : State} (hs : s.rx.state = .awaitCf)
    (hsn : f.f0.toNat = 0x20 + s.rx.esn.toNat) :
    exec (.evFrameIn s.cfg.rxId f) s = .next (acceptCf [f.f1, f.f2, f.f3, f.f4, f.f5, f.f6, f.f7] s) := by
  have hnum : f.f0.toNat - 0x20 = s.rx.esn.toNat := by omega
  rw [exec_evFrameIn_cf (by omega) (by omega), onCf, hs]
  simp only [if_pos hnum]

/-- Seven bytes short of RX.TOTAL or less, an accepted CF completes the payload (R155). -/
theorem acceptCf_of_reaches {d : List Byte} (hd : d.length = 7) {s : State}
    (hc : s.rx.total.toNat ≤ s.rx.buf.length + 7) : acceptCf d s = complete (cfAppended d s) := by
  rcases acceptCf_cases d s with ⟨_, h⟩ | ⟨hlt, _⟩
  · exact h
  · rw [cfAppended_length hd, cfTake, Config.cfData, cfAppended_rx] at hlt
    dsimp only at hlt
    omega

/-- More than seven bytes short of RX.TOTAL, an accepted CF goes on to the block check (R156). -/
theorem acceptCf_of_short {d : List Byte} (hd : d.length = 7) {s : State}
    (hc : s.rx.buf.length + 7 < s.rx.total.toNat) : acceptCf d s = blockCheck (cfAppended d s) := by
  rcases acceptCf_cases d s with ⟨hle, _⟩ | ⟨_, h⟩
  · rw [cfAppended_length hd, cfTake, Config.cfData, cfAppended_rx] at hle
    dsimp only at hle
    omega
  · exact h

/-- A CF that leaves the payload short gives all its bytes (R154). -/
theorem cfAppended_buf_of_short {d : List Byte} (hd : d.length = 7) {s : State}
    (hc : s.rx.buf.length + 7 < s.rx.total.toNat) : (cfAppended d s).rx.buf = s.rx.buf ++ d := by
  have htake : cfTake s = 7 := by rw [cfTake, Config.cfData]; omega
  rw [cfAppended_rx, htake, slice_all 0 7 d hd.le, List.drop_zero]

/-- Up to RX.TOTAL, RX.BUF holds the CF's bytes after those it held before: what the append leaves out stands beyond
RX.TOTAL (R154, R163). -/
theorem cfAppended_buf_take_total {d : List Byte} (hd : d.length = 7) (s : State) :
    (cfAppended d s).rx.buf.take s.rx.total.toNat = (s.rx.buf ++ d).take s.rx.total.toNat := by
  have hmin : min (s.rx.total.toNat - s.rx.buf.length) (cfTake s) =
      min (s.rx.total.toNat - s.rx.buf.length) d.length := by
    rw [cfTake, Config.cfData, hd]
    omega
  rw [cfAppended_rx, slice_zero, List.take_append, List.take_append, List.take_take, hmin, ← List.take_eq_take_min]

/-- Settles O39: the block check compares the advanced RX.FRIB. -/
theorem consecutiveFrameAppended : Obligations.ConsecutiveFrameAppended := by
  intro f s hs hsn hc
  have hbuf := cfAppended_buf_of_short (d := [f.f1, f.f2, f.f3, f.f4, f.f5, f.f6, f.f7]) rfl hc
  have hfull := eq_zeroExtend_iff (s.rx.frib + 1) s.cfg.bs
  rw [exec_evFrameIn_expectedCf hs hsn, acceptCf_of_short rfl hc, ← hbuf]
  rcases blockCheck_cases (cfAppended [f.f1, f.f2, f.f3, f.f4, f.f5, f.f6, f.f7] s) with ⟨hb, h⟩ | ⟨hb, h⟩ <;>
    rw [h] <;> simp only [cfAppended_cfg, cfAppended_rx, hfull] at hb
  · simp only [if_pos hb]
    rfl
  · simp only [if_neg hb]
    rfl

/-- Settles O40: Complete delivers RX.BUF after the append. -/
theorem consecutiveFrameCompletes : Obligations.ConsecutiveFrameCompletes := by
  intro f s hs hsn hc
  have hpayload := cfAppended_buf_take_total (d := [f.f1, f.f2, f.f3, f.f4, f.f5, f.f6, f.f7]) rfl s
  rw [exec_evFrameIn_expectedCf hs hsn, acceptCf_of_reaches rfl hc, ← hpayload, complete_eq]
  simp only [eq_zeroExtend_iff]
  rfl

/-! ## Expiries -/

/-- Settles O41: the expiry runs AbortRx, which disarms RX_CF once more. -/
theorem consecutiveFrameTimeoutAborts : Obligations.ConsecutiveFrameTimeoutAborts := by
  intro s hs ha
  rw [exec_evTmoRxCf, tmoRxCf, expire_of_armed (t := .rxCf) ha, disarm_rxCf_rx, if_pos hs]
  rfl

/-- Settles O42: the expiry runs EmitFC with RX_GUARD disarmed. -/
theorem guardExpirySendsFlowControl : Obligations.GuardExpirySendsFlowControl := by
  intro s ha
  rw [exec_evTmoRxGuard, tmoRxGuard, expire_of_armed (t := .rxGuard) ha]
  rfl

end Sys2Proof.Machine
end

section
/-! The end of a reception (43_receiver R163, R165, R166): the RxIndications and RxErrors of a step, counted once for each
move, and the payload that a multi-frame indication carries. -/

namespace Sys2Proof.Machine

open Sys2Proof.Safety

/-! ## How many indications end a reassembly -/

/-- The step from s, in a reassembly, to t puts out as many ends of a reception as R165 asks for: one where it leaves the
Receiver IDLE, and none where the reassembly goes on. -/
def IndicatesEnd (s t : State) : Prop :=
  ((newOut s t).filter isRxEnd).length = if t.rx.state = .idle then 1 else 0

theorem indicatesEnd_of_idle {s t : State} {os : List Output} (ht : t.rx.state = .idle) (ho : t.out = s.out ++ os)
    (hone : (os.filter isRxEnd).length = 1) : IndicatesEnd s t := by
  rw [IndicatesEnd, newOut_eq ho, if_pos ht, hone]

theorem indicatesEnd_of_awaitCf {s t : State} {os : List Output} (ht : t.rx.state = .awaitCf)
    (ho : t.out = s.out ++ os) (hnone : os.filter isRxEnd = []) : IndicatesEnd s t := by
  rw [IndicatesEnd, newOut_eq ho, hnone, if_neg (by simp [ht]), List.length_nil]

/-- EmitCF puts out a frame and perhaps a TxConfirm, no indication of the Receiver's (R132). -/
theorem emitCf_indicatesEnd {s : State} (hs : s.rx.state = .awaitCf) : IndicatesEnd s (emitCf s) := by
  rcases emitCf_cases s with ⟨_, h⟩ | ⟨_, _, h⟩ | ⟨_, _, _, h⟩ | ⟨_, _, _, h⟩ <;> rw [h]
  · exact indicatesEnd_of_awaitCf hs (List.append_assoc _ _ _) rfl
  · exact indicatesEnd_of_awaitCf hs (List.append_assoc _ _ _) rfl
  · exact indicatesEnd_of_awaitCf hs (channelSend_out _ _ s) rfl
  · exact indicatesEnd_of_awaitCf hs (channelSend_out _ _ s) rfl

/-- Every move from a reassembly puts out the ends of R165. -/
theorem Move.indicatesEnd {s t : State} (m : Move s t) (hs : s.rx.state = .awaitCf) : IndicatesEnd s t := by
  cases m with
  | strayRxCf hi | sfIdle _ hi => simp [hs] at hi
  | stay | codec | wait | strayTxFc | strayTxStmin | cfBlock | cfNext =>
    exact indicatesEnd_of_awaitCf hs (List.append_nil _).symm rfl
  | rejected | cancel | ovflw | fcTimeout | frameError | guard => exact indicatesEnd_of_awaitCf hs rfl rfl
  | single | firstErr =>
    exact indicatesEnd_of_awaitCf hs ((List.append_assoc _ _ _).trans (List.append_assoc _ _ _)) rfl
  | firstOk => exact indicatesEnd_of_awaitCf hs (List.append_assoc _ _ _) rfl
  | ffAccept => exact indicatesEnd_of_awaitCf rfl rfl rfl
  | cts bs st => exact emitCf_indicatesEnd (s := ctsRecorded bs st s) hs
  | stmin => exact emitCf_indicatesEnd (s := disarm .txStmin s) hs
  | sfAwait | cfMismatch | cfTimeout => exact indicatesEnd_of_idle rfl rfl rfl
  | ffOver => exact indicatesEnd_of_idle rfl (List.append_assoc _ _ _) rfl
  | cfComplete d =>
    rw [complete_eq]
    exact indicatesEnd_of_idle rfl rfl rfl

/-- Settles O55: a waiting block stays in its reassembly, and every move counts as R165 asks. -/
theorem oneIndicationPerReception : Obligations.OneIndicationPerReception := by
  intro s t hr hs h
  rcases step_move h with ⟨_, rfl⟩ | ⟨xs, hi, _⟩ | ⟨w, xs, _, m⟩
  · exact Move.stay.indicatesEnd hs
  · simp [hi] at hr
  · exact m.indicatesEnd hs

/-! ## How long a payload is -/

/-- The invariants bound RX.BUF: it is empty in IDLE, and in a reassembly short of RX.TOTAL, or the six bytes of a FF
that declares no more (R49). -/
theorem buf_length_le_of_receiverInv {c : Cfg} {p : Params} {r : Rx} (h : receiverInv c p r) :
    r.buf.length ≤ max 6 r.total.toNat := by
  obtain ⟨hidle, hawait, _⟩ := h
  cases hs : r.state with
  | idle => simp [(hidle hs).2]
  | awaitCf => have := (hawait hs).2; omega

/-- In a reassembly a CF that leads to a RxIndication has the expected number and completes the payload, cut to
RX.TOTAL. -/
theorem rxIndication_of_cf {s t : State} {f : Frame} {p : List Byte} (hs : s.rx.state = .awaitCf)
    (hlo : 0x20 ≤ f.f0.toNat) (hhi : f.f0.toNat ≤ 0x2F) (h : exec (.evFrameIn s.cfg.rxId f) s = .next t)
    (hmem : Output.ind (.rxIndication p) ∈ newOut s t) :
    s.rx.total.toNat ≤ s.rx.buf.length + 7 ∧
      p = (s.rx.buf ++ [f.f1, f.f2, f.f3, f.f4, f.f5, f.f6, f.f7]).take s.rx.total.toNat := by
  by_cases hsn : f.f0.toNat - 0x20 = s.rx.esn.toNat
  · have hexp : f.f0.toNat = 0x20 + s.rx.esn.toNat := by omega
    by_cases hc : s.rx.total.toNat ≤ s.rx.buf.length + 7
    · rw [consecutiveFrameCompletes f s hs hexp hc] at h
      obtain rfl := Host.Outcome.next.inj h
      rw [newOut_eq rfl, List.mem_singleton] at hmem
      exact ⟨hc, Indication.rxIndication.inj (Output.ind.inj hmem)⟩
    · rw [consecutiveFrameAppended f s hs hexp (Nat.lt_of_not_le hc)] at h
      obtain rfl := Host.Outcome.next.inj h
      simp [newOut] at hmem
  · rw [wrongSequenceNumberAborts f s hlo hhi hs hsn] at h
    obtain rfl := Host.Outcome.next.inj h
    rw [newOut_eq rfl, List.mem_singleton] at hmem
    cases hmem

/-- Settles O56: the bound is part of the invariants, which every step keeps; and what completes the payload reaches
RX.TOTAL, so the cut has that length. -/
theorem indicationHasDeclaredLength : Obligations.IndicationHasDeclaredLength := by
  refine ⟨fun s t hinv h => buf_length_le_of_receiverInv (stepKeepsInvariants s t hinv h).2, ?_⟩
  intro s t f p _ hs hlo hhi h hmem
  obtain ⟨hc, rfl⟩ := rxIndication_of_cf hs hlo hhi h hmem
  refine ⟨?_, rfl⟩
  rw [List.length_take, List.length_append]
  exact Nat.min_eq_left hc

end Sys2Proof.Machine
end

section
/-! A whole reassembly of the Receiver (43_receiver R150, R154, R155, 20_memory R63): what holds after the FF and the first
j CFs, kept by each CF of the run but the last, which delivers the payload. -/

namespace Sys2Proof.Machine

open Sys2Proof.Safety

/-! ## The frames of a payload, as the Receiver reads them -/

/-- The header of a FF holds the payload's length, big-endian (R64). -/
theorem payloadFf_header {p : List Byte} (hmax : p.length ≤ 4095) :
    (payloadFf p).f0.toNat = 0x10 + p.length / 256 ∧ (payloadFf p).f1.toNat = p.length % 256 := by
  rw [payloadFf, Frame.ofBytes_f0, Frame.ofBytes_f1, BitVec.toNat_ofNat, BitVec.toNat_ofNat]
  omega

theorem payloadFf_data {p : List Byte} (h6 : 6 ≤ p.length) :
    [(payloadFf p).f2, (payloadFf p).f3, (payloadFf p).f4, (payloadFf p).f5, (payloadFf p).f6, (payloadFf p).f7] =
      p.take 6 := by
  have hbytes : (payloadFf p).bytes = BitVec.ofNat 8 (0x10 + p.length / 256) :: BitVec.ofNat 8 p.length :: p.take 6 :=
    Frame.bytes_ofBytes (by simp [h6])
  exact (List.cons.inj (List.cons.inj hbytes).2).2

/-- The CF after the first j carries the number j + 1 mod 16 and the payload's next bytes, padded to 7 (R63, R110,
R142). -/
theorem payloadCf_header_and_data (p : List Byte) (j : Nat) :
    (payloadCf p (j + 1)).f0.toNat = 0x20 + (j + 1) % 16 ∧
    [(payloadCf p (j + 1)).f1, (payloadCf p (j + 1)).f2, (payloadCf p (j + 1)).f3, (payloadCf p (j + 1)).f4,
      (payloadCf p (j + 1)).f5, (payloadCf p (j + 1)).f6, (payloadCf p (j + 1)).f7] =
      pad0 ((p.drop (6 + 7 * j)).take 7) 7 := by
  have hbytes := encodePdu_cf_bytes (BitVec.ofNat 4 (j + 1)).toNat (List.length_take_le 7 (p.drop (6 + 7 * j)))
  rw [encodePdu_cf_eq_payloadCf] at hbytes
  obtain ⟨hf0, hdata⟩ := f0_eq_and_data_eq_of_bytes hbytes
  refine ⟨?_, hdata⟩
  rw [hf0, BitVec.toNat_ofNat, BitVec.toNat_ofNat]
  omega

/-- The bytes before a CF and the CF's are the payload's bytes up to the next CF, then the padding. -/
theorem take_append_cfData (p : List Byte) (j : Nat) :
    p.take (6 + 7 * j) ++ pad0 ((p.drop (6 + 7 * j)).take 7) 7 =
      p.take (6 + 7 * (j + 1)) ++ List.replicate (7 - ((p.drop (6 + 7 * j)).take 7).length) 0 := by
  rw [pad0, ← List.append_assoc, ← List.take_add]
  rfl

/-! ## The reassembly after j CFs -/

/-- What the FF and the first j CFs of the payload p, received from s on, leave behind while CFs are still to come. -/
structure Received (p : List Byte) (s : State) (j : Nat) (t : State) : Prop where
  cfg : t.cfg = s.cfg
  tx : t.tx = s.tx
  state : t.rx.state = .awaitCf
  esn : t.rx.esn = BitVec.ofNat 4 (j + 1)
  total : t.rx.total.toNat = p.length
  buf : t.rx.buf = p.take (6 + 7 * j)
  out : t.out = s.out ++ [.frame s.cfg.txId ⟨0x30, s.cfg.bs, s.cfg.stmin, 0, 0, 0, 0, 0⟩ s.answer]

section Reassembly
variable {p : List Byte} {s t : State} {j : Nat}

/-- The FF begins the reassembly and is answered (R150). -/
theorem exec_payloadFf_received (h8 : 8 ≤ p.length) (hmax : p.length ≤ 4095)
    (hcap : p.length ≤ s.params.rxBufCap.toNat) :
    ∃ t, exec (.evFrameIn s.cfg.rxId (payloadFf p)) s = .next t ∧ Received p s 0 t := by
  obtain ⟨hf0, hf1⟩ := payloadFf_header hmax
  have hlen : ((payloadFf p).f0.toNat - 0x10) * 256 + (payloadFf p).f1.toNat = p.length := by omega
  obtain ⟨n, hn, hexec⟩ := firstFrameStartsReassembly (payloadFf p) s (by omega) (by omega) (hlen.trans_le hcap)
  exact ⟨_, hexec, rfl, rfl, rfl, rfl, hn.trans hlen, payloadFf_data (by omega), rfl⟩

/-- The payload's next CF has the number that the Receiver expects. -/
theorem Received.payloadCf_f0 (h : Received p s j t) : (payloadCf p (j + 1)).f0.toNat = 0x20 + t.rx.esn.toNat := by
  rw [(payloadCf_header_and_data p j).1, h.esn, BitVec.toNat_ofNat]

/-- Every CF but the last leaves the payload short (R144). -/
theorem Received.buf_length (h : Received p s j t) (hj : j < cfCount p.length) : t.rx.buf.length = 6 + 7 * j := by
  rw [cfCount] at hj
  rw [h.buf, List.length_take]
  omega

/-- A CF before the last one is appended (R154). -/
theorem Received.exec_payloadCf (h : Received p s j t) (hj : j + 1 < cfCount p.length) :
    ∃ u, exec (.evFrameIn s.cfg.rxId (payloadCf p (j + 1))) t = .next u ∧ Received p s (j + 1) u := by
  have hlen := h.buf_length (Nat.lt_of_succ_lt hj)
  have hf0 := h.payloadCf_f0
  obtain ⟨hcfg, htx, hstate, hesn, htotal, hbuf, hout⟩ := h
  have hmore : 6 + 7 * (j + 1) < p.length := by rw [cfCount] at hj; omega
  have hfull : 7 - ((p.drop (6 + 7 * j)).take 7).length = 0 := by
    rw [List.length_take, List.length_drop]
    omega
  rw [← hcfg]
  refine ⟨_, consecutiveFrameAppended _ t hstate hf0 (by omega), hcfg, htx, hstate, ?_, htotal, ?_, hout⟩ <;>
    dsimp only
  · rw [hesn]
    exact (BitVec.ofNat_add _ _).symm
  · rw [(payloadCf_header_and_data p j).2, hbuf, take_append_cfData, hfull, List.replicate_zero, List.append_nil]

/-- The last CF delivers the payload, without its padding (R155, R163). -/
theorem Received.exec_lastCf (h : Received p s j t) (hj : j + 1 = cfCount p.length) :
    ∃ u, exec (.evFrameIn s.cfg.rxId (payloadCf p (j + 1))) t = .next u ∧
      u.out = t.out ++ [.ind (.rxIndication p)] ∧
      u.rx.state = .idle ∧ u.rx.buf = [] ∧ u.rx.cfArmed = false ∧ u.tx = t.tx := by
  have hlen := h.buf_length (Nat.lt_of_succ_le hj.le)
  have hf0 := h.payloadCf_f0
  obtain ⟨hcfg, _, hstate, _, htotal, hbuf, _⟩ := h
  have hlast : p.length ≤ 6 + 7 * (j + 1) := by rw [cfCount] at hj; omega
  rw [← hcfg]
  refine ⟨_, consecutiveFrameCompletes _ t hstate hf0 (by omega), ?_, rfl, rfl, rfl, rfl⟩
  dsimp only
  rw [(payloadCf_header_and_data p j).2, hbuf, htotal, take_append_cfData, List.take_of_length_le hlast, List.take_left]

/-- The run up to each CF but the last, by induction on their number. -/
theorem execAll_firstFrames (h8 : 8 ≤ p.length) (hmax : p.length ≤ 4095) (hcap : p.length ≤ s.params.rxBufCap.toNat)
    (hj : j < cfCount p.length) :
    ∃ t, execAll ((firstFrames p j).map (.evFrameIn s.cfg.rxId)) s = .next t ∧ Received p s j t := by
  induction j with
  | zero =>
    obtain ⟨t, hexec, ht⟩ := exec_payloadFf_received h8 hmax hcap
    exact ⟨t, (execAll_singleton _ s).trans hexec, ht⟩
  | succ j ih =>
    obtain ⟨t, hrun, ht⟩ := ih (Nat.lt_of_succ_lt hj)
    obtain ⟨u, hexec, hu⟩ := ht.exec_payloadCf hj
    refine ⟨u, ?_, hu⟩
    rw [firstFrames_succ, List.map_append, execAll_append hrun]
    exact (execAll_singleton _ t).trans hexec

end Reassembly

/-- Settles O60: the FF is answered, the CFs but the last are appended in silence, and the last one delivers. -/
theorem receiverReassemblesPayload : Obligations.ReceiverReassemblesPayload := by
  intro p s h8 hmax hcap
  obtain ⟨j, hj⟩ : ∃ j, j + 1 = cfCount p.length := ⟨cfCount p.length - 1, by rw [cfCount]; omega⟩
  obtain ⟨t, hrun, ht⟩ := execAll_firstFrames h8 hmax hcap (Nat.lt_of_succ_le hj.le)
  obtain ⟨u, hexec, hout, hstate, hbuf, harmed, htx⟩ := ht.exec_lastCf hj
  refine ⟨u, ?_, ?_, hstate, hbuf, harmed, htx.trans ht.tx⟩
  · rw [← firstFrames_cfCount, ← hj, firstFrames_succ, List.map_append, execAll_append hrun]
    exact (execAll_singleton _ t).trans hexec
  · rw [hout, ht.out, List.append_assoc]
    rfl

end Sys2Proof.Machine
end

section
/-! The dispatch of inbound frames and of event words (44_dispatch R167, R169, R171): the identifier filter, the report of
a frame that does not decode, and the reserved op codes. -/

namespace Sys2Proof.Machine

/-- The identifier filter drops a frame that is not for this block (R167). -/
theorem exec_evFrameIn_of_ne_rxId {id : Ident} {s : State} (h : id ≠ s.cfg.rxId) (f : Frame) :
    exec (.evFrameIn id f) s = .next s := by
  rw [exec_evFrameIn, frameIn, if_neg h]

/-- A frame under CFG.RX_ID that does not decode is reported with the decoder's error, and no register changes (R169). -/
theorem exec_evFrameIn_of_decode_error {f : Frame} {e : FrameError} (h : codecDecode f = .error e) (s : State) :
    exec (.evFrameIn s.cfg.rxId f) s = .next { s with out := s.out ++ [.ind (.frameErrorInd e)] } := by
  rw [exec_evFrameIn_of_decode h, route]
  rfl

/-- Settles O43: the filter comes first, and the decoder's error is the one for the range of f[0]. -/
theorem filteredOrUndecodableFrame : Obligations.FilteredOrUndecodableFrame := by
  refine ⟨fun id f s hid => ?_, fun f s hlo hhi => ?_, fun f s h => ?_⟩
  · exact exec_evFrameIn_of_ne_rxId hid f
  · exact exec_evFrameIn_of_decode_error (codecDecode_sfLenErr hlo (Nat.lt_succ_of_le hhi)) s
  · exact exec_evFrameIn_of_decode_error (codecDecode_malformed h) s

/-- Settles O44: each of the two rows has the refusal as its whole meaning, whatever the state and the low bits. -/
theorem reservedOpCodesRefused : Obligations.ReservedOpCodesRefused :=
  fun s => ⟨exec_evRsv0 s, fun x => exec_evRsv8 x s⟩

end Sys2Proof.Machine
end

section
/-! No instruction and no step stops the block (60_exceptions R178, R187): a well-formed instruction outside the reserved
rows completes, and what does not complete is refused by the model, which is no fault of the block. -/

namespace Sys2Proof.Machine

/-! ## Completion -/

/-- An instruction outside the codec completes unless its row is reserved: each event is a total rule on the state. -/
theorem exec_completes_of_event {i : Instr} (hc : Safety.isCodec i = false) (hr : Safety.isReserved i = false)
    (s : State) : ∃ t, exec i s = .next t := by
  cases i with
  | evTxStart p => exact ⟨_, exec_evTxStart p s⟩
  | evTxCancel => exact ⟨_, exec_evTxCancel s⟩
  | evFrameIn id f => exact ⟨_, exec_evFrameIn id f s⟩
  | evTmoTxFc => exact ⟨_, exec_evTmoTxFc s⟩
  | evTmoTxStmin => exact ⟨_, exec_evTmoTxStmin s⟩
  | evTmoRxCf => exact ⟨_, exec_evTmoRxCf s⟩
  | evTmoRxGuard => exact ⟨_, exec_evTmoRxGuard s⟩
  | evRsv0 | evRsv8 => nomatch hr
  | encSf | encFf | encCf | encFcCts | encFcWait | encFcOvflw | decSf | decSfLenErr | decFf | decCf | decFcCts
  | decFcWait | decFcOvflw | decFcRsv3 | decFcRsv4 | decFcRsv8 | decRsvType4 | decRsvType8 => nomatch hc

/-- A well-formed instruction outside the reserved rows completes: the codec by its one result (R126), an event by its
rule. -/
theorem exec_completes {i : Instr} (hwf : i.wf = true) (hr : Safety.isReserved i = false) (s : State) :
    ∃ t, exec i s = .next t := by
  cases hc : Safety.isCodec i with
  | true =>
    obtain ⟨_, hexec⟩ := codecHasNoState i hc hwf
    exact ⟨_, hexec s⟩
  | false => exact exec_completes_of_event hc hr s

/-! ## No fault -/

/-- A PDU outside the encoder's domain is refused (R105), so an encode request faults on no PDU. -/
theorem encodeRequest_ne_fault (p : Pdu) (s : State) (r : Fault) : encodeRequest p s ≠ .fault r := by
  rw [encodeRequest_eq]
  split <;> nofun

/-- No instruction faults, ill-formed ones included: only an encode request has a choice of answers, and every other row
has one next state or one refusal as its whole answer. -/
theorem exec_ne_fault (i : Instr) (s : State) (r : Fault) : exec i s ≠ .fault r := by
  cases i with
  | encSf l d => exact encodeRequest_ne_fault (.sf l d) s r
  | encFf n d => exact encodeRequest_ne_fault (.ff n d) s r
  | encCf n d => exact encodeRequest_ne_fault (.cf n d) s r
  | encFcCts bs st => exact encodeRequest_ne_fault (.fc .cts bs st) s r
  | encFcWait bs st => exact encodeRequest_ne_fault (.fc .wait bs st) s r
  | encFcOvflw bs st => exact encodeRequest_ne_fault (.fc .ovflw bs st) s r
  | decSf | decSfLenErr | decFf | decCf | decFcCts | decFcWait | decFcOvflw | decFcRsv3 | decFcRsv4 | decFcRsv8
  | decRsvType4 | decRsvType8 => nofun
  | evTxStart | evTxCancel | evFrameIn | evTmoTxFc | evTmoTxStmin | evTmoRxCf | evTmoRxGuard => nofun
  | evRsv0 | evRsv8 => nofun

/-- The reset signal and a broken word do not fault, and a word that decodes is run as its instruction. -/
theorem stepOn_ne_fault (x : Input) (s : State) (r : Fault) : stepOn x s ≠ .fault r := by
  cases x with
  | reset => nofun
  | word w =>
    cases hd : decode w with
    | instr i =>
      rw [stepOn_word_of_decode_instr hd]
      exact exec_ne_fault i s r
    | reject e =>
      simp only [stepOn, hd]
      nofun

/-- A step without a legal configuration is refused (R26), one without an input waits (R198), and any other runs its
oldest input. -/
theorem step_ne_fault (s : State) (r : Fault) : step s ≠ .fault r := by
  unfold step
  split
  · split
    · nofun
    · exact stepOn_ne_fault _ _ r
  · nofun

/-- Settles O45: completion by the row's kind, codec or event, and no fault from the instruction up to the step. -/
theorem everyInstructionCompletes : Obligations.EveryInstructionCompletes :=
  ⟨fun _ s hwf hr => exec_completes hwf hr s, step_ne_fault⟩

end Sys2Proof.Machine
end

section
/-! Reset and the step that runs no instruction (70_reset_and_hazards R196 to R201, 10_state R26): what the reset signal
writes, the invariants at the reset values, and the outcomes of `step` beside `step_of_inputs_cons`: with no input it
waits, without a legal configuration and on a broken event word it is refused. -/

namespace Sys2Proof.Machine

open Sys2Proof.Safety

/-! ## The reset values -/

/-- The Sender's reset values meet its invariants (R48, R196). -/
theorem senderInv_reset : senderInv Tx.reset := by decide

/-- The Receiver's reset values meet its invariants, whatever CFG and the parameters hold (R49, R196). -/
theorem receiverInv_reset (c : Cfg) (p : Params) : receiverInv c p Rx.reset :=
  receiverInv_of_idle rfl rfl rfl rfl nofun

/-- Settles O1: the step is `assertReset` on the state without its oldest input; it writes the two units' registers and
nothing else. -/
theorem resetSignalGivesResetValues : Obligations.ResetSignalGivesResetValues := by
  intro s xs hc hi
  have hstep : step s = .next (assertReset { s with inputs := xs }) := step_of_inputs_cons hc hi
  exact ⟨_, hstep, by simp [Tx.reset], by simp [Rx.reset], by simp⟩

/-- Settles O2: each unit meets its invariants at its reset values, which are IDLE with the timers disarmed. -/
theorem resetMeetsInvariants : Obligations.ResetMeetsInvariants :=
  fun c p => ⟨⟨senderInv_reset, receiverInv_reset c p⟩, rfl, rfl, rfl, rfl, rfl, rfl, rfl⟩

/-! ## Steps that run no instruction -/

/-- CFG is legal exactly when the two identifiers and CFG.STMIN are within the bounds of R25. -/
theorem cfgLegal_iff (c : Cfg) :
    cfgLegal c = true ↔ c.txId.toNat ≤ 0x1FFFFFFF ∧ c.rxId.toNat ≤ 0x1FFFFFFF ∧ c.stmin.toNat ≤ 127 := by
  simp [cfgLegal, and_assoc]

/-- Under a legal configuration a step with no input waiting answers the same state (R198). -/
theorem step_of_inputs_nil {s : State} (hc : cfgLegal s.cfg = true) (hi : s.inputs = []) : step s = .next s := by
  simp only [step, hc, hi, if_true]

/-- Without a legal configuration every step is refused (R26). -/
theorem step_of_not_cfgLegal {s : State} (hc : ¬ cfgLegal s.cfg = true) : step s = .refused .illegalConfiguration :=
  if_neg hc

/-- A word that decodes to no instruction is refused. -/
theorem stepOn_word_of_decode_reject {w : PortWord} {e : DecodeError} (hd : decode w = .reject e) (s : State) :
    stepOn (.word w) s = .refused .notAnEventWord := by
  simp only [stepOn, hd]

/-- Settles O4: the three outcomes of a step that runs no instruction; the bounds of R25 decide the second. -/
theorem stepWaitsOrRefuses : Obligations.StepWaitsOrRefuses := by
  refine ⟨fun s => step_of_inputs_nil, fun s hout => step_of_not_cfgLegal ?_, fun s w xs e hc hi hd => ?_⟩
  · rw [cfgLegal_iff]
    omega
  · rw [step_of_inputs_cons hc hi, stepOn_word_of_decode_reject hd]

end Sys2Proof.Machine
end
